-- ==== Sys2Proof/Word.lean ====
section
/-! DEFINITION. The word types of the machine. -/

namespace Sys2Proof

/-- A 64-bit value: a general register, a System register, an address (10_state.md R21, R25, R46, R54, R55). -/
abbrev Word := BitVec 64

/-- One byte of memory. -/
abbrev Byte := BitVec 8

end Sys2Proof
end

