-- ==== Sys2Proof/Syntax.lean ====
section
/-! DEFINITION. The instructions (spec/opcode_table.json, one constructor per row), the Exception
levels, and what an instruction's text says of it: its System register, its direction, its `Rt`. -/

namespace Sys2Proof

/-- The Exception levels of `PSTATE.EL` (10_state.md R49, 60_exceptions.md R160). -/
inductive EL where
  | el0 | el1 | el2 | el3
deriving DecidableEq, Repr

/-- The number of a level: a higher number is more privileged (00_scope.md glossary, GK6). -/
def EL.toNat : EL → Nat
  | .el0 => 0
  | .el1 => 1
  | .el2 => 2
  | .el3 => 3

/-- The number `t` of `<Xt>`: 0 to 30 name X0 to X30, 31 names XZR (30_encoding.md R96). A larger
number is no register; `Instr.wellFormed` refuses it. -/
abbrev RegNum := Nat

/-- The three System registers in scope (00_scope.md R4). -/
inductive SysReg where
  | mpam1El1 | mpam2El2 | mpam3El3
deriving DecidableEq, Repr

/-- The six accessor instructions (30_encoding.md R95, R100). -/
inductive Instr where
  /-- `MRS <Xt>, MPAM2_EL2` (R111). -/
  | mrsMpam2El2 (t : RegNum)
  /-- `MSR MPAM2_EL2, <Xt>` (R112). -/
  | msrMpam2El2 (t : RegNum)
  /-- `MRS <Xt>, MPAM1_EL1` (R121). -/
  | mrsMpam1El1 (t : RegNum)
  /-- `MSR MPAM1_EL1, <Xt>` (R122). -/
  | msrMpam1El1 (t : RegNum)
  /-- `MRS <Xt>, MPAM3_EL3` (R131). -/
  | mrsMpam3El3 (t : RegNum)
  /-- `MSR MPAM3_EL3, <Xt>` (R132). -/
  | msrMpam3El3 (t : RegNum)
deriving DecidableEq, Repr

/-- The number in the field `Rt`. -/
def Instr.rt : Instr → RegNum
  | .mrsMpam2El2 t => t
  | .msrMpam2El2 t => t
  | .mrsMpam1El1 t => t
  | .msrMpam1El1 t => t
  | .mrsMpam3El3 t => t
  | .msrMpam3El3 t => t

/-- The System register the encoding names; which register is reached is the meaning's business
(30_encoding.md R92). -/
def Instr.sysReg : Instr → SysReg
  | .mrsMpam2El2 _ => .mpam2El2
  | .msrMpam2El2 _ => .mpam2El2
  | .mrsMpam1El1 _ => .mpam1El1
  | .msrMpam1El1 _ => .mpam1El1
  | .mrsMpam3El3 _ => .mpam3El3
  | .msrMpam3El3 _ => .mpam3El3

/-- True for `MRS`, false for `MSR`: the bit `L` (30_encoding.md R94). -/
def Instr.isRead : Instr → Bool
  | .mrsMpam2El2 _ => true
  | .msrMpam2El2 _ => false
  | .mrsMpam1El1 _ => true
  | .msrMpam1El1 _ => false
  | .mrsMpam3El3 _ => true
  | .msrMpam3El3 _ => false

end Sys2Proof
end

