-- ==== Sys2Proof/Config.lean ====
section
/-! DEFINITION. The implementation parameters of 00_scope.md section 5, held as plain data so that a
claim either fixes one as a premise or holds for all its values, and the one free value. -/

namespace Sys2Proof

/-- What a "Reserved, RES0" bit does (10_state.md R42, D14). -/
inductive Res0Mode where
  /-- Reads 0, writes ignored. -/
  | hardwired
  /-- Reads return the last value written; no effect. -/
  | stored
deriving DecidableEq, Repr

/-- When a System register write is seen through another path (70_reset_and_hazards.md R176, D23). -/
inductive SyncModel where
  /-- Every write is seen by everything at once. -/
  | immediate
  /-- Before a context synchronisation event another path sees the old or the new value. -/
  | untilSync
deriving DecidableEq, Repr

/-- How a read of `NVMem[0x900]` is answered: choice (a) or (b) of 20_memory.md R73. -/
inductive NVReadModel where
  /-- (a): by the oracle, any 64 bits. The spec's choice (D9). -/
  | oracle
  /-- (b), with the sequential reading of R78: by the last value written. -/
  | flat
deriving DecidableEq, Repr

/-- What an `Undefined` or `SystemAccessTrap` outcome does to the machine. -/
inductive ExcModel where
  /-- The run stops at the outcome, a fault (60_exceptions.md R140, D7, D8). -/
  | stop
  /-- The exception is taken: the entry of 60_exceptions.md R150 to R152. -/
  | enter
deriving DecidableEq, Repr

/-- A layout of the bits of MPAM3_EL3 or MPAM1_EL1 that the source does not describe: a bit set in
`rw` is read/write, a clear one is RES0 (10_state.md R24, R47). -/
structure Layout where
  rw : Word
deriving DecidableEq, Repr

/-- The generally known layout of MPAM3_EL3: SDEFLT, FORCE_NS, [59:48] RES0, the label fields.
PRESUMED by the spec (93_implementation_defined.md GK3); no rule supplies it by default. -/
def Layout.gk3 : Layout := ⟨0x3000FFFFFFFFFFFF#64⟩

/-- The generally known layout of MPAM1_EL1: [62:48] RES0, the label fields. PRESUMED by the spec
(93_implementation_defined.md GK14). -/
def Layout.gk14 : Layout := ⟨0x0000FFFFFFFFFFFF#64⟩

/-- The parameters of the hardware, fixed for a machine (00_scope.md R6 to R9; 10_state.md R65;
60_exceptions.md R150). No step writes them. -/
structure Config where
  haveEL2 : Bool
  haveEL3 : Bool
  featMPAM : Bool
  featMPAMv0p1 : Bool
  featMPAMv1p1 : Bool
  /-- `MPAMIDR_EL1.HAS_TIDR` (R8). -/
  hasTidr : Bool
  /-- `TRAPLOWER_BIT` (R9, D3): a bit of MPAM3_EL3 other than [63]. -/
  traplowerBit : Fin 63
  mpam3Layout : Option Layout
  mpam1Layout : Option Layout
  res0Mode : Res0Mode
  defaultPartid : BitVec 16
  defaultPmg : BitVec 8
  /-- A read-back of a PARTID above it is free (D25, GK29). -/
  partidMax : BitVec 16
  pmgMax : BitVec 8
  syncModel : SyncModel
  nvReadModel : NVReadModel
  onException : ExcModel
  resetEL : EL
  resetPC : Word
  vbarEL1 : Word
  vbarEL2 : Word
  vbarEL3 : Word
deriving DecidableEq, Repr

/-- The configuration of `State.reset`: K0 of 95_test_vectors.md, with the spec's own choices for the
rest and `onException = enter`. DESIGN CHOICE where no rule fixes a value: notes/assumptions/2.md,
3.md, 7.md, 10.md, and 48.md for the three vector bases. -/
def Config.titled : Config where
  haveEL2 := true
  haveEL3 := true
  featMPAM := true
  featMPAMv0p1 := false
  featMPAMv1p1 := false
  hasTidr := false
  traplowerBit := 62
  mpam3Layout := none
  mpam1Layout := none
  res0Mode := .hardwired
  defaultPartid := 0#16
  defaultPmg := 0#8
  partidMax := 0xFFFF#16
  pmgMax := 0xFF#8
  syncModel := .untilSync
  nvReadModel := .oracle
  onException := .enter
  resetEL := .el3
  resetPC := 0#64
  vbarEL1 := 0#64
  vbarEL2 := 0#64
  vbarEL3 := 0#64

/-- `TIDR_PRESENT` (00_scope.md R8). -/
def Config.tidrPresent (c : Config) : Bool := (c.featMPAMv0p1 || c.featMPAMv1p1) && c.hasTidr

/-- The bit groups of MPAM2_EL2 below bit 63 (10_state.md R27), as sites of a free value. -/
inductive M2Field where
  | res62to59 | tidr | res58 | res57to50 | trapMpam0El1 | trapMpam1El1
  | pmgD | pmgI | partidD | partidI
deriving DecidableEq, Repr

/-- The kind of a memory request (10_state.md R38 to R41). -/
inductive Access where
  | data | instruction
deriving DecidableEq, Repr

/-- The paths by which a piece of shared state is read or written (70_reset_and_hazards.md R176): a
register through an encoding, or the hardware itself. R176 speaks of the same register through the same
encoding (a) and of a different encoding (b). The MPAM1_EL1 encoding reaches two registers, MPAM2_EL2 under
E2H and MPAM1_EL1 otherwise: that a read of MPAMEN through it that reaches the other register than the write
did is another path, so old or new, is a DESIGN CHOICE (notes/assumptions/49.md). -/
inductive View where
  /-- MPAM3_EL3 through its encoding. -/
  | mpam3
  /-- MPAM2_EL2 through its encoding. -/
  | mpam2
  /-- MPAM2_EL2 through the MPAM1_EL1 encoding, at EL2 with E2H. -/
  | mpam2ViaMpam1
  /-- MPAM1_EL1 through its encoding. -/
  | mpam1
  /-- The indirect read that labels the `n`-th memory request of a kind at a level. -/
  | label (e : EL) (k : Access) (n : Nat)
deriving DecidableEq, Repr

/-- The places of the machine where a value is left open. One draw is made at a site while the counter
stands: every use of `draw` has a site or a count of its own (00_scope.md R16). -/
inductive DrawSite where
  /-- Which of the old and new MPAMEN a not yet synchronised read shows (R176). -/
  | mpamenSeen (v : View)
  /-- The same for a field of MPAM2_EL2 (R176). -/
  | m2Seen (v : View) (f : M2Field)
  /-- The read-back of a PARTID or PMG field above its maximum (D25). -/
  | idReadback (f : M2Field)
  /-- The undescribed bits of MPAM3_EL3 (R24). -/
  | mpam3Bits
  /-- The undescribed bits of MPAM1_EL1 (R47). -/
  | mpam1Bits
  /-- The oracle's answer to a read of NVMem (R73). -/
  | nvMem
  /-- IL and ISS of an Undefined exception, which R152 does not state. -/
  | undefinedSyndrome
  /-- The label of the `n`-th request of a kind at a level whose register the source does not describe
  (R28, R45). -/
  | labelPartid (e : EL) (k : Access) (n : Nat)
  | labelPmg (e : EL) (k : Access) (n : Nat)
  /-- Values after a Warm reset (R59 to R65). -/
  | resetM2 (f : M2Field)
  | resetTraplower
  | resetMpam3Rest
  | resetMpam1Rest
  | resetX (n : Nat)
  | resetEsr (e : EL)
  | resetElr (e : EL)
  | resetSpsr (e : EL)
  | resetDebugError
deriving DecidableEq, Repr

/-- The free value `draw` of 00_scope.md R16: the value drawn at a site when the draw counter stands
at `n`. It has no body that a proof could use: every claim holds whatever it is
(notes/assumptions/15.md). -/
opaque Config.draw : Nat → DrawSite → Word

end Sys2Proof
end

