-- ==== Sys2Proof/WellFormed.lean ====
section
/-! DEFINITION. When an instruction is one the encoding can hold. -/

namespace Sys2Proof

/-- The one operand check: `Rt` is a 5-bit field (30_encoding.md R94, R96). -/
def Instr.wellFormed (i : Instr) : Bool := decide (i.rt < 32)

end Sys2Proof
end

