-- ==== Sys2Proof/Decode.lean ====
section
/-! DEFINITION. From bytes to an instruction, and back (30_encoding.md). Decoding reads the encoding
alone (R97). -/

namespace Sys2Proof

/-- The five fields that select a System register (30_encoding.md R90). -/
structure SysEnc where
  op0 : BitVec 2
  op1 : BitVec 3
  crn : BitVec 4
  crm : BitVec 4
  op2 : BitVec 3
deriving DecidableEq, Repr

/-- Why bytes are no instruction of this spec; each is a refusal (30_encoding.md R97, R99). -/
inductive DecodeReject where
  /-- Fewer than the four bytes of an A64 word (R94). -/
  | tooShort (bytes : Nat)
  /-- The word is not of the System-register-move format (R94). -/
  | notSystemMove (w : BitVec 32)
  /-- An `MRS` or `MSR` of a System register that no source shows (R99). -/
  | registerNotInSpec (isRead : Bool) (e : SysEnc)
deriving DecidableEq, Repr

/-- The encodings of the three registers (R91, R92; R93 is GK4, PRESUMED by the spec). -/
def SysReg.enc : SysReg → SysEnc
  | .mpam1El1 => ⟨0b11#2, 0b000#3, 0b1010#4, 0b0101#4, 0b000#3⟩
  | .mpam2El2 => ⟨0b11#2, 0b100#3, 0b1010#4, 0b0101#4, 0b000#3⟩
  | .mpam3El3 => ⟨0b11#2, 0b110#3, 0b1010#4, 0b0101#4, 0b000#3⟩

/-- The mask of R95: every bit but `Rt`. -/
def rowMask : BitVec 32 := 0xFFFFFFE0#32

/-- The six rows of R95: the match and the instruction it stands for. -/
def decodeRows : List (BitVec 32 × (RegNum → Instr)) :=
  [ (0xD538A500#32, .mrsMpam1El1),
    (0xD518A500#32, .msrMpam1El1),
    (0xD53CA500#32, .mrsMpam2El2),
    (0xD51CA500#32, .msrMpam2El2),
    (0xD53EA500#32, .mrsMpam3El3),
    (0xD51EA500#32, .msrMpam3El3) ]

/-- Why a word that matches no row is refused: its fixed bits [31:22] and bit 20 (R94). -/
def rejectWord (w : BitVec 32) : DecodeReject :=
  if w.extractLsb' 22 10 = 0b1101010100#10 ∧ w.getLsbD 20 = true then
    .registerNotInSpec (w.getLsbD 21)
      ⟨w.extractLsb' 19 2, w.extractLsb' 16 3, w.extractLsb' 12 4, w.extractLsb' 8 4,
        w.extractLsb' 5 3⟩
  else .notSystemMove w

/-- The row a word matches, searched in order (R95, R97), with `t = w[4:0]` (R96). -/
def findRow (w : BitVec 32) : List (BitVec 32 × (RegNum → Instr)) → Except DecodeReject Instr
  | [] => .error (rejectWord w)
  | (m, mk) :: rows =>
    if w &&& rowMask = m then .ok (mk (w.extractLsb' 0 5).toNat) else findRow w rows

/-- The instruction of a 32-bit word, or why there is none. -/
def decodeWord (w : BitVec 32) : Except DecodeReject Instr := findRow w decodeRows

/-- A 32-bit word from its bytes, least significant byte first (20_memory.md R74). -/
def wordOfBytes (b0 b1 b2 b3 : Byte) : BitVec 32 :=
  b3.setWidth 32 <<< 24 ||| b2.setWidth 32 <<< 16 ||| b1.setWidth 32 <<< 8 ||| b0.setWidth 32

/-- The bytes of a 32-bit word, least significant byte first (20_memory.md R74). -/
def bytesOfWord (w : BitVec 32) : List Byte :=
  [w.extractLsb' 0 8, w.extractLsb' 8 8, w.extractLsb' 16 8, w.extractLsb' 24 8]

/-- The decoder: the instruction at the head of the bytes and the bytes after it. -/
def decode : List Byte → Except DecodeReject (Instr × List Byte)
  | b0 :: b1 :: b2 :: b3 :: rest =>
    match decodeWord (wordOfBytes b0 b1 b2 b3) with
    | .ok i => .ok (i, rest)
    | .error r => .error r
  | bs => .error (.tooShort bs.length)

/-- The word of R95's formula, from the five fields, the direction and `Rt`. -/
def sysMoveWord (isRead : Bool) (e : SysEnc) (rt : BitVec 5) : BitVec 32 :=
  0xD5000000#32 ||| (BitVec.ofBool isRead).setWidth 32 <<< 21 ||| e.op0.setWidth 32 <<< 19 |||
    e.op1.setWidth 32 <<< 16 ||| e.crn.setWidth 32 <<< 12 ||| e.crm.setWidth 32 <<< 8 |||
    e.op2.setWidth 32 <<< 5 ||| rt.setWidth 32

/-- The word of a well-formed instruction, written from the encoding tables (R91 to R95). -/
def encodeWord (i : Instr) : BitVec 32 :=
  sysMoveWord i.isRead i.sysReg.enc (BitVec.ofNat 5 i.rt)

/-- The encoder: the four bytes of an instruction as memory holds them. -/
def encode (i : Instr) : List Byte := bytesOfWord (encodeWord i)

/-- The host's reading of a table row: the low `nbits` bits of `w`, laid out as memory holds them
and given to the decoder. -/
def decodeTableWord (nbits w : Nat) : Option Instr :=
  match decode (bytesOfWord (BitVec.ofNat 32 (w % 2 ^ nbits))) with
  | .ok (i, _) => some i
  | .error _ => none

end Sys2Proof
end

