-- ==== Sys2Proof/Machine/State.lean ====
section
/-! DEFINITION. The state of the machine as plain data (10_state.md section 4 and 5, 60_exceptions.md
R150 to R153), its faults and refusals, and the state after reset. -/

namespace Sys2Proof.Machine

/-- PSTATE as far as the spec names it: EL (10_state.md R49), the masks D, A, I, F and the stack
pointer select SP (60_exceptions.md R150, R152). There are no flags (10_state.md R56). -/
structure PState where
  el : EL
  d : Bool
  a : Bool
  i : Bool
  f : Bool
  sp : Bool
deriving DecidableEq, Repr

/-- The registers an exception taken to one level saves into (60_exceptions.md R150 to R153). SPSR is
held as the PSTATE it saves: the spec gives no bit layout (notes/assumptions/11.md). -/
structure ExcBank where
  esr : BitVec 32
  elr : Word
  spsr : PState
deriving DecidableEq, Repr

/-- The levels an exception can be taken to (60_exceptions.md R150, R152). -/
inductive HandlerEL where
  | el1 | el2 | el3
deriving DecidableEq, Repr

/-- The stored fields of MPAM2_EL2 below bit 63 (10_state.md R27, section 4). -/
structure M2 where
  /-- M2_res_62_59 -/
  res62to59 : BitVec 4
  tidr : Bool
  /-- M2_res_58 -/
  res58 : Bool
  /-- M2_res_57_50 -/
  res57to50 : BitVec 8
  trapMpam0El1 : Bool
  trapMpam1El1 : Bool
  pmgD : BitVec 8
  pmgI : BitVec 8
  partidD : BitVec 16
  partidI : BitVec 16
deriving DecidableEq, Repr

/-- The read-only inputs of 10_state.md section 5 (R50 to R53), `HCR_EL2.TGE` (60_exceptions.md R152)
and the place and byte order of NVMem (20_memory.md R73, R74). -/
structure Inputs where
  /-- `EL2Enabled()` -/
  el2Enabled : Bool
  hcrNV : Bool
  hcrNV1 : Bool
  hcrNV2 : Bool
  hcrE2H : Bool
  hcrTGE : Bool
  /-- `Halted()` -/
  halted : Bool
  edscrSDD : Bool
  /-- `MPAMHCR_EL2.TRAP_MPAMIDR_EL1` -/
  mpamhcrTrapMpamidr : Bool
  /-- VNCR_BASE divided by 4096, so that the base is a multiple of 4096 as R73 requires. -/
  vncrPage : BitVec 52
  /-- `NV_BIG_ENDIAN` -/
  nvBigEndian : Bool
deriving DecidableEq, Repr

/-- A write not yet followed by a context synchronisation event: the path it was made through and
the value before it (70_reset_and_hazards.md R176). -/
structure Pending (α : Type) where
  view : View
  old : α
deriving DecidableEq, Repr

/-- An access to `NVMem[0x900]` as the history records it (20_memory.md R73 (a), R78). -/
inductive NVEvent where
  | read (addr : Nat) (value : Word)
  | write (addr : Nat) (value : Word)
deriving DecidableEq, Repr

/-- What the environment can do between two instructions. -/
inductive EnvEvent where
  /-- A Warm reset (70_reset_and_hazards.md R170). -/
  | warmReset
  /-- A context synchronisation event, such as an ISB (R176). -/
  | contextSync
  /-- A handler's exception return; `true` if it first adds 4 to ELR (60_exceptions.md R153). -/
  | exceptionReturn (advance : Bool)
  /-- The inputs take new values (10_state.md section 5). -/
  | setInputs (inp : Inputs)
deriving DecidableEq, Repr

/-- The machine. `cfg` is the hardware's parameters; `draws`, `nvLog` and `events` are the model's
own fields; the rest is the spec's. INVENTORY.md gives each field's rule. -/
structure State where
  cfg : Config
  inp : Inputs
  pc : Word
  /-- X0 to X30 (10_state.md R54). -/
  x : Vector Word 31
  pstate : PState
  /-- The one shared MPAMEN (10_state.md R30). -/
  mpamen : Bool
  /-- MPAM3_EL3.TRAPLOWER (10_state.md R23). -/
  traplower : Bool
  /-- MPAM3_rest (10_state.md R24). -/
  mpam3Rest : Word
  m2 : M2
  /-- MPAM1_rest (10_state.md R47). -/
  mpam1Rest : Word
  /-- Instruction memory: the program text, loaded from outside, reached only by fetch (20_memory.md R70,
  R79), in canonical form (`Memory.wf`). -/
  text : List Host.Cell
  /-- Data memory, which holds `NVMem[0x900]` (20_memory.md R70, R71), in canonical form. -/
  mem : List Host.Cell
  exc1 : ExcBank
  exc2 : ExcBank
  exc3 : ExcBank
  /-- The error flag a debugger sees (60_exceptions.md R152). Nothing but a Warm reset clears it: DESIGN
  CHOICE (notes/assumptions/46.md). -/
  debugError : Bool
  /-- Unsynchronised writes of MPAMEN, newest first (70_reset_and_hazards.md R176). -/
  enPending : List (Pending Bool)
  /-- Unsynchronised writes of MPAM2_EL2's fields, newest first. -/
  m2Pending : List (Pending M2)
  /-- The NVMem events, newest first. The model's own. -/
  nvLog : List NVEvent
  /-- The environment's events, the next one first. The model's own. -/
  events : List EnvEvent
  /-- How many draws were made: indexes `Config.draw`. The model's own. -/
  draws : Nat
deriving DecidableEq, Repr

/-- Why the machine stops with a fault. -/
inductive Fault where
  /-- The outcome `Undefined` of an instruction (60_exceptions.md R140, R144). Raised by every
  accessor when `cfg.onException = stop`. Safe: the run stops there. -/
  | undefined (i : Instr)
  /-- The outcome `SystemAccessTrap(target, code)` of an instruction (60_exceptions.md R140 to R143).
  Raised by the accessors of MPAM2_EL2 and MPAM1_EL1 when `cfg.onException = stop`. Safe. -/
  | systemAccessTrap (i : Instr) (target : HandlerEL) (code : BitVec 6)
  /-- The fetch met a byte that nothing has written. Raised by the fetch. Safe: the byte has no value
  (notes/assumptions/19.md). -/
  | fetchUnwritten (pc : Word)
deriving DecidableEq, Repr

/-- Why the model does not say what comes next. -/
inductive Refusal where
  /-- An instruction without a meaning yet. Raised by no arm of `exec` now. Safe. -/
  | notModelled (mnemonic : String)
  /-- The state is one the spec does not admit: no EL2, a level that is not implemented or not
  enabled, a misaligned parameter (10_state.md R25, R49, R52; 20_memory.md R75). Raised by `step`
  and by an event that would lead there. Safe. -/
  | notAdmitted
  /-- The bytes at the pc are no instruction of this spec (30_encoding.md R97, R99). Raised by the
  fetch. Safe. -/
  | notDecoded (why : DecodeReject)
  /-- The pc is no multiple of 4 (20_memory.md R75). Raised by the fetch and by an exception return.
  Safe. -/
  | misalignedPc (pc : Word)
  /-- The pc would pass the top of the address space (10_state.md R55, D22). Raised where an
  instruction completes at the last word. Safe. -/
  | pcWrap
  /-- The program text overlaps NVAddr(0x900): such a launch must be refused (20_memory.md R79). Raised by
  `step`, and by an event that would lead there. Safe. -/
  | textOverNVMem
  /-- An exception return at EL0, which has no ELR (60_exceptions.md R153). Raised by that event. Safe. -/
  | returnFromEL0
  /-- An exception return to a higher level, which the spec does not describe (60_exceptions.md R153).
  Raised by that event. Safe. -/
  | illegalReturn
deriving DecidableEq, Repr

/-- What a step or a meaning answers. -/
abbrev Out := Host.Outcome State Fault Refusal

/-- The inputs of `State.reset`: the spec gives none (10_state.md R65). DESIGN CHOICE: every bit 0
(notes/assumptions/9.md). -/
def Inputs.zero : Inputs where
  el2Enabled := false
  hcrNV := false
  hcrNV1 := false
  hcrNV2 := false
  hcrE2H := false
  hcrTGE := false
  halted := false
  edscrSDD := false
  mpamhcrTrapMpamidr := false
  vncrPage := 0#52
  nvBigEndian := false

/-- PSTATE after reset: the level of `RESET_EL`, interrupts masked, SP_ELx selected (10_state.md R65,
70_reset_and_hazards.md R172). PRESUMED, GK23 (notes/assumptions/7.md). -/
def PState.afterReset (e : EL) : PState := ⟨e, true, true, true, true, true⟩

/-- The exception registers of `State.reset`. DESIGN CHOICE: zero (notes/assumptions/8.md). -/
def ExcBank.zero : ExcBank := ⟨0#32, 0#64, ⟨.el0, false, false, false, false, false⟩⟩

/-- The fields of MPAM2_EL2 after reset: the two traps are 1 without EL3 (10_state.md R59, R60);
every other field is UNKNOWN or unstated (R59 to R62, R64). DESIGN CHOICE: zero
(notes/assumptions/4.md). -/
def M2.afterReset (c : Config) : M2 where
  res62to59 := 0#4
  tidr := false
  res58 := false
  res57to50 := 0#8
  trapMpam0El1 := !c.haveEL3
  trapMpam1El1 := !c.haveEL3
  pmgD := 0#8
  pmgI := 0#8
  partidD := 0#16
  partidI := 0#16

/-- The machine right after a reset, for any parameters and inputs: MPAMEN is 0 (10_state.md R57, R58);
TRAPLOWER is PRESUMED 1 (GK22, notes/assumptions/5.md); registers the spec gives no value hold
the ones INVENTORY.md names. -/
def State.resetOf (c : Config) (inp : Inputs) : State where
  cfg := c
  inp := inp
  pc := c.resetPC
  x := Vector.replicate 31 0#64
  pstate := PState.afterReset c.resetEL
  mpamen := false
  traplower := true
  mpam3Rest := 0#64
  m2 := M2.afterReset c
  mpam1Rest := 0#64
  text := []
  mem := []
  exc1 := ExcBank.zero
  exc2 := ExcBank.zero
  exc3 := ExcBank.zero
  debugError := false
  enPending := []
  m2Pending := []
  nvLog := []
  events := []
  draws := 0

/-- The machine right after reset: the titled hardware, with EL3 (00_scope.md R6). -/
def State.reset : State := State.resetOf Config.titled Inputs.zero

end Sys2Proof.Machine
end

