-- ==== Sys2Proof/Machine/Flags.lean ====
section
/-! DEFINITION. The hardware of this spec has no condition flags (10_state.md R56). What its
instructions test instead are the named conditions of 40_mpam2_el2_access.md and
41_mpam1_el1_access.md, all written here, and the trap controls that concern instructions outside
the opcode table. Trap tests use the current register values under either synchronisation model
(70_reset_and_hazards.md R176; notes/assumptions/17.md). -/

namespace Sys2Proof.Machine

/-- `T3`: `HaveEL(EL3) && MPAM3_EL3.TRAPLOWER == '1'` (10_state.md R23). -/
def t3 (s : State) : Bool := s.cfg.haveEL3 && s.traplower

/-- `SD`: `Halted() && EDSCR.SDD == '1'` (60_exceptions.md R145). -/
def sd (s : State) : Bool := s.inp.halted && s.inp.edscrSDD

/-- `NVt`: `EL2Enabled() && HCR_EL2.NV == '1'` (60_exceptions.md R157). -/
def nvt (s : State) : Bool := s.inp.el2Enabled && s.inp.hcrNV

/-- `T2`: `EL2Enabled() && MPAM2_EL2.TRAPMPAM1EL1 == '1'` (10_state.md R37). -/
def t2 (s : State) : Bool := s.inp.el2Enabled && s.m2.trapMpam1El1

/-- `NV2m`: `EL2Enabled() && HCR_EL2.<NV2,NV1,NV> == '111'` (60_exceptions.md R158). -/
def nv2m (s : State) : Bool :=
  s.inp.el2Enabled && (s.inp.hcrNV2 && s.inp.hcrNV1 && s.inp.hcrNV)

/-- `E2H`: `HCR_EL2.E2H == '1'` (60_exceptions.md R158). -/
def e2h (s : State) : Bool := s.inp.hcrE2H

/-- `trap_idr` of 10_state.md R33: either control traps accesses to MPAMIDR_EL1 from EL1 to EL2
(60_exceptions.md R147). The instructions it traps are in no source (00_scope.md R5). -/
def trapIdr (s : State) : Bool :=
  (s.cfg.tidrPresent && s.m2.tidr) || s.inp.mpamhcrTrapMpamidr

/-- Whether MPAM2_EL2.TIDR has its effect: it has none while EL2 is not enabled (10_state.md R26,
R32). The stored field acts without FEAT_MPAM too, a DESIGN CHOICE (notes/assumptions/47.md). -/
def tidrActs (s : State) : Bool := s.inp.el2Enabled && (s.cfg.tidrPresent && s.m2.tidr)

/-- Whether MPAM2_EL2.TRAPMPAM0EL1 traps accesses to MPAM0_EL1 from EL1 to EL2 (10_state.md R26, R36;
60_exceptions.md R146). The instructions it traps are in no source. The stored field acts without FEAT_MPAM
too, a DESIGN CHOICE (notes/assumptions/47.md). -/
def trapMpam0Acts (s : State) : Bool := s.inp.el2Enabled && s.m2.trapMpam0El1

end Sys2Proof.Machine
end

