-- ==== Sys2Proof/Machine/Operands.lean ====
section
/-! DEFINITION. The one operand form: the general register `X[t]` (10_state.md R54, 30_encoding.md
R96). -/

namespace Sys2Proof.Machine

/-- `x[t]`: X0 to X30; XZR reads as 0 (10_state.md R54). A number above 31, which no encoding holds,
reads as XZR. -/
def readX (s : State) (t : RegNum) : Word := if h : t < 31 then s.x[t] else 0#64

/-- `x[t] <- v`: XZR discards the value (10_state.md R54). -/
def writeX (s : State) (t : RegNum) (v : Word) : State :=
  if h : t < 31 then { s with x := s.x.set t v } else s

end Sys2Proof.Machine
end

