-- ==== Sys2Proof/Machine/Ops.lean ====
section
/-! DEFINITION. The shared operations: memory, free values, synchronisation, completing an instruction,
taking an exception and returning from one, the trap to EL3 that every lower access tests, NVMem,
and a Warm reset. -/

namespace Sys2Proof.Machine

/-! ### Memory: 20_memory.md -/

/-- The byte at an address. An address nothing has written has no value (notes/assumptions/19.md). -/
def Memory.read : List Host.Cell → Nat → Option Byte
  | [], _ => none
  | (k, b) :: rest, a => if k = a then some b else Memory.read rest a

/-- Store one byte, keeping the addresses rising. -/
def Memory.write : List Host.Cell → Nat → Byte → List Host.Cell
  | [], a, b => [(a, b)]
  | (k, v) :: rest, a, b =>
    if a < k then (a, b) :: (k, v) :: rest
    else if a = k then (a, b) :: rest
    else (k, v) :: Memory.write rest a b

/-- The addresses rise strictly from `lo` on, within the 64-bit address space. -/
def Memory.risesFrom : Nat → List Host.Cell → Bool
  | _, [] => true
  | lo, (k, _) :: rest => decide (lo ≤ k) && decide (k < 2 ^ 64) && Memory.risesFrom (k + 1) rest

/-- The canonical form. An unlisted address has no value, so no entry can equal what it reads as. -/
def Memory.wf (m : List Host.Cell) : Bool := Memory.risesFrom 0 m

/-- Store bytes at rising addresses. -/
def Memory.writeBytes (m : List Host.Cell) (a : Nat) : List Byte → List Host.Cell
  | [] => m
  | b :: bs => Memory.writeBytes (Memory.write m a b) (a + 1) bs

/-- As many bytes from `a` on as there are fallbacks, each its fallback where nothing was written. -/
def Memory.readBytesOr (m : List Host.Cell) (a : Nat) : List Byte → List Byte
  | [] => []
  | d :: ds => (Memory.read m a).getD d :: Memory.readBytesOr m (a + 1) ds

/-- The eight bytes of a 64-bit value, least significant first. -/
def littleBytes (v : Word) : List Byte :=
  [v.extractLsb' 0 8, v.extractLsb' 8 8, v.extractLsb' 16 8, v.extractLsb' 24 8,
    v.extractLsb' 32 8, v.extractLsb' 40 8, v.extractLsb' 48 8, v.extractLsb' 56 8]

/-- The 64-bit value of bytes, least significant first. -/
def ofLittleBytes : List Byte → Word
  | [] => 0#64
  | b :: bs => (ofLittleBytes bs <<< 8) ||| b.setWidth 64

/-- The eight bytes of a 64-bit value in the order memory holds them (20_memory.md R74). -/
def dataBytes (bigEndian : Bool) (v : Word) : List Byte :=
  if bigEndian then (littleBytes v).reverse else littleBytes v

/-- The 64-bit value of eight bytes in the order memory holds them (20_memory.md R74). -/
def ofDataBytes (bigEndian : Bool) (bs : List Byte) : Word :=
  if bigEndian then ofLittleBytes bs.reverse else ofLittleBytes bs

/-- `v` with bit `n` set to `b`. -/
def setBit (v : Word) (n : Nat) (b : Bool) : Word :=
  (v &&& ~~~(1#64 <<< n)) ||| ((BitVec.ofBool b).setWidth 64 <<< n)

/-! ### Free values: 00_scope.md R16 -/

/-- The draw at a site in this state. -/
def drawAt (s : State) (d : DrawSite) : Word := Config.draw s.draws d

/-- The next draws are other ones. Every next state a step answers is ticked. -/
def tick (s : State) : State := { s with draws := s.draws + 1 }

/-! ### Synchronisation: 70_reset_and_hazards.md R176 -/

/-- The older values a read through path `v` may still show: those before the unsynchronised writes,
back to the last write made through `v` itself, which `v` is certain to see (R176 (a), (b); DEDUCED
for more than one write, notes/assumptions/16.md). -/
def olderValues {α : Type} (v : View) : List (Pending α) → List α
  | [] => []
  | p :: ps => if p.view = v then [] else p.old :: olderValues v ps

/-- The current value or one of the older ones, by the draw `k`; the current one if there are none. -/
def oldOrNew {α : Type} (k : Word) (new : α) : List α → α
  | [] => new
  | old :: olds => (new :: old :: olds).getD (k.toNat % (olds.length + 2)) new

/-- MPAMEN as a read through path `v` shows it (R176). -/
def mpamenSeen (s : State) (v : View) : Bool :=
  match s.cfg.syncModel with
  | .immediate => s.mpamen
  | .untilSync => oldOrNew (drawAt s (.mpamenSeen v)) s.mpamen (olderValues v s.enPending)

/-- A field of MPAM2_EL2 as a read through path `v` shows it, each field drawn on its own (R176). -/
def m2Seen {α : Type} (s : State) (v : View) (f : M2Field) (get : M2 → α) : α :=
  match s.cfg.syncModel with
  | .immediate => get s.m2
  | .untilSync =>
    oldOrNew (drawAt s (.m2Seen v f)) (get s.m2) ((olderValues v s.m2Pending).map get)

/-- A context synchronisation event: every write so far is seen from now on (R176). -/
def contextSync (s : State) : State := { s with enPending := [], m2Pending := [] }

/-! ### Completing an instruction: 10_state.md R55, 60_exceptions.md R140 -/

/-- The outcome `Done`: `pc <- pc + 4`; passing the top of the address space is refused (R55, D22). -/
def complete (s : State) : Out :=
  if s.pc.toNat + 4 < 2 ^ 64 then .next (tick { s with pc := s.pc + 4#64 }) else .refused .pcWrap

/-! ### Which states the spec admits -/

/-- EL2 is implemented (10_state.md R25), EL3 executes only where implemented and EL2 only where enabled
(R49, R52), and the parameters that become a pc are multiples of 4 (20_memory.md R75). -/
def State.admitted (s : State) : Bool :=
  s.cfg.haveEL2 && (decide (s.pstate.el ≠ .el3) || s.cfg.haveEL3) &&
    (decide (s.pstate.el ≠ .el2) || s.inp.el2Enabled) &&
    decide (s.cfg.resetPC.toNat % 4 = 0) && decide (s.cfg.vbarEL1.toNat % 4 = 0) &&
    decide (s.cfg.vbarEL2.toNat % 4 = 0) && decide (s.cfg.vbarEL3.toNat % 4 = 0)

/-- `NVAddr(0x900) = VNCR_BASE + 0x900` (20_memory.md R73). -/
def nvAddr (s : State) : Word := (s.inp.vncrPage.setWidth 64 <<< 12) + 0x900#64

/-- Whether a byte of the program text is one of the eight at NVAddr(0x900) (20_memory.md R79). -/
def textOverlapsNVMem (s : State) : Bool :=
  s.text.any (fun c => decide ((nvAddr s).toNat ≤ c.1) && decide (c.1 < (nvAddr s).toNat + 8))

/-- What follows, unless the state is refused: one the spec does not admit, or a launch it has refused
(20_memory.md R79; notes/assumptions/24.md). -/
def unlessRefused (s : State) (out : Out) : Out :=
  if s.admitted then
    if textOverlapsNVMem s then .refused .textOverNVMem else out
  else .refused .notAdmitted

/-- A next state, unless it is refused. -/
def nextUnlessRefused (s : State) : Out := unlessRefused s (.next s)

/-! ### Taking an exception: 60_exceptions.md R149 to R152 -/

/-- The two outcomes of an instruction that does not complete (60_exceptions.md R140). -/
inductive Exc where
  | undefined
  | systemAccessTrap (target : HandlerEL)
deriving DecidableEq, Repr

/-- The level a handler runs at. -/
def HandlerEL.toEL : HandlerEL → EL
  | .el1 => .el1
  | .el2 => .el2
  | .el3 => .el3

/-- The code of every `AArch64.SystemAccessTrap` call (60_exceptions.md R141). -/
def trapCode : BitVec 6 := 0x18#6

/-- `VBAR_ELx`, a parameter (60_exceptions.md R150). -/
def vbar (c : Config) : HandlerEL → Word
  | .el1 => c.vbarEL1
  | .el2 => c.vbarEL2
  | .el3 => c.vbarEL3

/-- The exception registers of a level. -/
def bank (s : State) : HandlerEL → ExcBank
  | .el1 => s.exc1
  | .el2 => s.exc2
  | .el3 => s.exc3

/-- The state with the exception registers of a level replaced. -/
def setBank (s : State) (h : HandlerEL) (b : ExcBank) : State :=
  match h with
  | .el1 => { s with exc1 := b }
  | .el2 => { s with exc2 := b }
  | .el3 => { s with exc3 := b }

/-- The syndrome ISS of a trapped accessor: `0, op0, op2, op1, CRn, Rt, CRm, Direction`
(60_exceptions.md R151). -/
def accessIss (i : Instr) : BitVec 25 :=
  0#3 ++ i.sysReg.enc.op0 ++ i.sysReg.enc.op2 ++ i.sysReg.enc.op1 ++ i.sysReg.enc.crn ++
    BitVec.ofNat 5 i.rt ++ i.sysReg.enc.crm ++ BitVec.ofBool i.isRead

/-- `ESR_ELx` of a trapped accessor: `EC = 0x18`, `IL = 1`, ISS (60_exceptions.md R150, R151). -/
def trapEsr (i : Instr) : BitVec 32 := trapCode ++ 1#1 ++ accessIss i

/-- `ESR_ELx` of an Undefined exception: `EC = 0x00` (60_exceptions.md R152). IL and ISS are not
stated there and are a free value (notes/assumptions/12.md). -/
def undefinedEsr (s : State) : BitVec 32 :=
  ((drawAt s .undefinedSyndrome).extractLsb' 0 26).setWidth 32

/-- Where an Undefined exception is taken: from EL0 to EL1, or EL2 under TGE; otherwise to the level
the instruction was executed at (60_exceptions.md R152). -/
def undefinedTarget (s : State) : HandlerEL :=
  match s.pstate.el with
  | .el0 => if s.inp.el2Enabled && s.inp.hcrTGE then .el2 else .el1
  | .el1 => .el1
  | .el2 => .el2
  | .el3 => .el3

/-- The vector offset: 0x400 from a lower level, 0x200 from the same level with SP_ELx, 0x000 with
SP_EL0 (60_exceptions.md R150, R152; GK19). -/
def vectorOffset (s : State) (h : HandlerEL) : Word :=
  if s.pstate.el.toNat < h.toEL.toNat then 0x400#64
  else if s.pstate.sp then 0x200#64 else 0x000#64

/-- Exception entry: ESR, ELR (the instruction's own address) and SPSR of the target are written, the
mode and masks change, the pc goes to the vector, and the context is synchronised
(60_exceptions.md R150; 70_reset_and_hazards.md R176). A vector address past the top of the address space
wraps modulo 2^64, which the spec leaves open: DESIGN CHOICE (notes/assumptions/45.md). -/
def enterException (h : HandlerEL) (esr : BitVec 32) (s : State) : State :=
  contextSync
    { setBank s h ⟨esr, s.pc, s.pstate⟩ with
      pstate := ⟨h.toEL, true, true, true, true, true⟩
      pc := vbar s.cfg h + vectorOffset s h }

/-- An Undefined exception. In Debug state no vector is taken and the debugger sees an error flag
(60_exceptions.md R152; notes/assumptions/13.md), which stays set: DESIGN CHOICE
(notes/assumptions/46.md). -/
def takeUndefined (s : State) : State :=
  if s.inp.halted then { s with debugError := true }
  else enterException (undefinedTarget s) (undefinedEsr s) s

/-- An instruction that does not complete (60_exceptions.md R140): the run stops at the outcome, or
the exception is taken, as the configuration says (notes/assumptions/10.md). It has performed none
of its effects (R149). -/
def raise (i : Instr) (e : Exc) (s : State) : Out :=
  match s.cfg.onException, e with
  | .stop, .undefined => .fault (.undefined i)
  | .stop, .systemAccessTrap h => .fault (.systemAccessTrap i h trapCode)
  | .enter, .undefined => .next (tick (takeUndefined s))
  | .enter, .systemAccessTrap h => .next (tick (enterException h (trapEsr i) s))

/-- The trap to EL3 by TRAPLOWER, UNDEFINED instead in Debug state with SDD, and what comes after if
TRAPLOWER does not trap (60_exceptions.md R142, R145). -/
def unlessTrapLower (i : Instr) (s : State) (otherwise : Out) : Out :=
  if t3 s then
    if sd s then raise i .undefined s else raise i (.systemAccessTrap .el3) s
  else otherwise

/-! ### Returning from an exception: 60_exceptions.md R153 -/

/-- The return address: ELR, which a handler that emulated the access advances by 4 first. -/
def returnAddress (b : ExcBank) (advance : Bool) : Word :=
  if advance then b.elr + 4#64 else b.elr

/-- The state after a return through a level's registers to an address: PSTATE is SPSR, ELR and the pc
hold the address, the context is synchronised (70_reset_and_hazards.md R176). -/
def returned (h : HandlerEL) (target : Word) (s : State) : State :=
  contextSync
    { setBank s h ⟨(bank s h).esr, target, (bank s h).spsr⟩ with
      pstate := (bank s h).spsr
      pc := target }

/-- Return through a level's registers. A return to a higher level, to a misaligned pc or past the top
of the address space is refused (notes/assumptions/33.md). -/
def returnThrough (h : HandlerEL) (advance : Bool) (s : State) : Out :=
  if advance && decide (2 ^ 64 ≤ (bank s h).elr.toNat + 4) then .refused .pcWrap
  else if s.pstate.el.toNat < (bank s h).spsr.el.toNat then .refused .illegalReturn
  else if (returnAddress (bank s h) advance).toNat % 4 ≠ 0 then
    .refused (.misalignedPc (returnAddress (bank s h) advance))
  else nextUnlessRefused (tick (returned h (returnAddress (bank s h) advance) s))

/-- An exception return at the current level. -/
def exceptionReturn (advance : Bool) (s : State) : Out :=
  match s.pstate.el with
  | .el0 => .refused .returnFromEL0
  | .el1 => returnThrough .el1 advance s
  | .el2 => returnThrough .el2 advance s
  | .el3 => returnThrough .el3 advance s

/-! ### NVMem[0x900]: 20_memory.md R71 to R74 -/

/-- What a read of `NVMem[0x900]` answers: the oracle's draw, or the bytes memory holds, a byte nothing
has written being its byte of the draw (20_memory.md R71, R73, R78; notes/assumptions/18.md). -/
def nvValue (s : State) : Word :=
  match s.cfg.nvReadModel with
  | .oracle => drawAt s .nvMem
  | .flat =>
    ofDataBytes s.inp.nvBigEndian
      (Memory.readBytesOr s.mem (nvAddr s).toNat
        (dataBytes s.inp.nvBigEndian (drawAt s .nvMem)))

/-- The memory after the 64 bits of `v` are written, unfiltered, to `NVMem[0x900]` (20_memory.md R72,
R74). -/
def nvStore (s : State) (v : Word) : List Host.Cell :=
  Memory.writeBytes s.mem (nvAddr s).toNat (dataBytes s.inp.nvBigEndian v)

/-- `x[t] <- MemRead(NVAddr(0x900), 8)`, recorded as an event (20_memory.md R71, R73). The access is
made for XZR too (41_mpam1_el1_access.md R121 corner case 8). -/
def readNVMem (t : RegNum) (s : State) : Out :=
  complete (writeX
    { s with nvLog := .read (nvAddr s).toNat (nvValue s) :: s.nvLog } t (nvValue s))

/-- `MemWrite(NVAddr(0x900), 8, x[t])`, recorded as an event (20_memory.md R72, R73). -/
def writeNVMem (t : RegNum) (s : State) : Out :=
  complete
    { s with
      mem := nvStore s (readX s t)
      nvLog := .write (nvAddr s).toNat (readX s t) :: s.nvLog }

/-! ### Warm reset: 70_reset_and_hazards.md R170 -/

/-- A level from two drawn bits. -/
def elOfBits (b1 b0 : Bool) : EL :=
  if b1 then (if b0 then .el3 else .el2) else (if b0 then .el1 else .el0)

/-- The exception registers of a level with no value the spec gives: draws. -/
def drawnBank (s : State) (e : EL) : ExcBank :=
  let p := drawAt s (.resetSpsr e)
  ⟨(drawAt s (.resetEsr e)).extractLsb' 0 32, drawAt s (.resetElr e),
    ⟨elOfBits (p.getLsbD 1) (p.getLsbD 0), p.getLsbD 2, p.getLsbD 3, p.getLsbD 4, p.getLsbD 5,
      p.getLsbD 6⟩⟩

/-- The fields of MPAM2_EL2 after a Warm reset (10_state.md R59 to R62, R64). -/
def drawnM2 (s : State) : M2 where
  res62to59 := (drawAt s (.resetM2 .res62to59)).extractLsb' 0 4
  tidr := (drawAt s (.resetM2 .tidr)).getLsbD 0
  res58 := (drawAt s (.resetM2 .res58)).getLsbD 0
  res57to50 := (drawAt s (.resetM2 .res57to50)).extractLsb' 0 8
  trapMpam0El1 :=
    if s.cfg.haveEL3 then (drawAt s (.resetM2 .trapMpam0El1)).getLsbD 0 else true
  trapMpam1El1 :=
    if s.cfg.haveEL3 then (drawAt s (.resetM2 .trapMpam1El1)).getLsbD 0 else true
  pmgD := (drawAt s (.resetM2 .pmgD)).extractLsb' 0 8
  pmgI := (drawAt s (.resetM2 .pmgI)).extractLsb' 0 8
  partidD := (drawAt s (.resetM2 .partidD)).extractLsb' 0 16
  partidI := (drawAt s (.resetM2 .partidI)).extractLsb' 0 16

/-- A Warm reset as the event of the environment: every piece of state takes the value its reset rule
gives, a draw where there is none; nothing of it is preserved (70_reset_and_hazards.md R170; 10_state.md
R57 to R65). The bytes of data memory have no value then; the parameters, the inputs, the program text
and the model's own fields are not state that resets (notes/assumptions/32.md). -/
def warmReset (s : State) : State :=
  tick (contextSync
    { s with
      pc := s.cfg.resetPC
      x := Vector.ofFn (fun n : Fin 31 => drawAt s (.resetX n.val))
      pstate := PState.afterReset s.cfg.resetEL
      mpamen := false
      traplower := (drawAt s .resetTraplower).getLsbD 0
      mpam3Rest := drawAt s .resetMpam3Rest
      m2 := drawnM2 s
      mpam1Rest := drawAt s .resetMpam1Rest
      mem := []
      exc1 := drawnBank s .el1
      exc2 := drawnBank s .el2
      exc3 := drawnBank s .el3
      debugError := (drawAt s .resetDebugError).getLsbD 0 })

end Sys2Proof.Machine
end

