-- ==== Sys2Proof/Machine/SysRegs.lean ====
section
/-! DEFINITION. The read and write functions of the three MPAM registers (10_state.md R24, R43, R44, R48)
and the label MPAMEN and MPAM2_EL2 give (R28, R45). -/

namespace Sys2Proof.Machine

/-- `res0_read` (10_state.md R43). -/
def res0Read (c : Config) {w : Nat} (stored : BitVec w) : BitVec w :=
  match c.res0Mode with
  | .hardwired => 0#w
  | .stored => stored

/-- `layout_read`: a read/write bit reads the stored bit, a RES0 bit by R42 (10_state.md R24). -/
def layoutRead (c : Config) (l : Layout) (rest : Word) : Word :=
  (rest &&& l.rw) ||| (res0Read c rest &&& ~~~l.rw)

/-- A PARTID or PMG field as it is read back: the stored value, free above the implemented maximum
(10_state.md, after R41; D25; notes/assumptions/28.md). -/
def idReadback {w : Nat} (s : State) (f : M2Field) (max stored : BitVec w) : BitVec w :=
  if stored ≤ max then stored else (drawAt s (.idReadback f)).extractLsb' 0 w

/-- Bit 58 of a set of MPAM2_EL2's fields: TIDR when present, else RES0 (10_state.md R32, R34). -/
def m2Bit58 (c : Config) (m : M2) : Bool :=
  if c.tidrPresent then m.tidr else (res0Read c (BitVec.ofBool m.res58)).getLsbD 0

/-- The ten bit groups of MPAM2_EL2, most significant first (10_state.md R27). -/
def m2Word (en : Bool) (r62to59 : BitVec 4) (b58 : Bool) (r57to50 : BitVec 8) (t0 t1 : Bool)
    (pmgD pmgI : BitVec 8) (partidD partidI : BitVec 16) : Word :=
  (BitVec.ofBool en).setWidth 64 <<< 63 ||| r62to59.setWidth 64 <<< 59 |||
    (BitVec.ofBool b58).setWidth 64 <<< 58 ||| r57to50.setWidth 64 <<< 50 |||
    (BitVec.ofBool t0).setWidth 64 <<< 49 ||| (BitVec.ofBool t1).setWidth 64 <<< 48 |||
    pmgD.setWidth 64 <<< 40 ||| pmgI.setWidth 64 <<< 32 ||| partidD.setWidth 64 <<< 16 |||
    partidI.setWidth 64

/-- `ReadMPAM2()`, through path `v` (10_state.md R43). -/
def readMPAM2 (v : View) (s : State) : Word :=
  m2Word (mpamenSeen s v)
    (res0Read s.cfg (m2Seen s v .res62to59 M2.res62to59))
    (m2Seen s v (if s.cfg.tidrPresent then .tidr else .res58) (m2Bit58 s.cfg))
    (res0Read s.cfg (m2Seen s v .res57to50 M2.res57to50))
    (m2Seen s v .trapMpam0El1 M2.trapMpam0El1)
    (m2Seen s v .trapMpam1El1 M2.trapMpam1El1)
    (idReadback s .pmgD s.cfg.pmgMax (m2Seen s v .pmgD M2.pmgD))
    (idReadback s .pmgI s.cfg.pmgMax (m2Seen s v .pmgI M2.pmgI))
    (idReadback s .partidD s.cfg.partidMax (m2Seen s v .partidD M2.partidD))
    (idReadback s .partidI s.cfg.partidMax (m2Seen s v .partidI M2.partidI))

/-- The fields of MPAM2_EL2 after a write of `w` (10_state.md R44): a RES0 bit is dropped or stored by
its mode. -/
def m2Written (c : Config) (w : Word) (m : M2) : M2 where
  res62to59 := if c.res0Mode = .stored then w.extractLsb' 59 4 else m.res62to59
  tidr := if c.tidrPresent then w.getLsbD 58 else m.tidr
  res58 := if !c.tidrPresent && decide (c.res0Mode = .stored) then w.getLsbD 58 else m.res58
  res57to50 := if c.res0Mode = .stored then w.extractLsb' 50 8 else m.res57to50
  trapMpam0El1 := w.getLsbD 49
  trapMpam1El1 := w.getLsbD 48
  pmgD := w.extractLsb' 40 8
  pmgI := w.extractLsb' 32 8
  partidD := w.extractLsb' 16 16
  partidI := w.extractLsb' 0 16

/-- MPAMEN written through path `v` (10_state.md R22, R29), to be synchronised
(70_reset_and_hazards.md R176). -/
def writeMpamen (v : View) (b : Bool) (s : State) : State :=
  { s with mpamen := b, enPending := ⟨v, s.mpamen⟩ :: s.enPending }

/-- `WriteMPAM2(w)`, through path `v` (10_state.md R44): bit 63 is taken only without EL3 (R29). -/
def writeMPAM2 (v : View) (w : Word) (s : State) : State :=
  let s' := if s.cfg.haveEL3 then s else writeMpamen v (w.getLsbD 63) s
  { s' with m2 := m2Written s.cfg w s.m2, m2Pending := ⟨v, s.m2⟩ :: s.m2Pending }

/-- `ReadMPAM3()` (10_state.md R24). -/
def readMPAM3 (s : State) : Word :=
  let v := match s.cfg.mpam3Layout with
    | some l => layoutRead s.cfg l s.mpam3Rest
    | none => drawAt s .mpam3Bits
  setBit (setBit v 63 (mpamenSeen s .mpam3)) s.cfg.traplowerBit.val s.traplower

/-- `WriteMPAM3(w)` (10_state.md R24). -/
def writeMPAM3 (w : Word) (s : State) : State :=
  { writeMpamen .mpam3 (w.getLsbD 63) s with
    traplower := w.getLsbD s.cfg.traplowerBit.val
    mpam3Rest := w }

/-- `ReadMPAM1()` (10_state.md R48). -/
def readMPAM1 (s : State) : Word :=
  let v := match s.cfg.mpam1Layout with
    | some l => layoutRead s.cfg l s.mpam1Rest
    | none => drawAt s .mpam1Bits
  setBit v 63 (mpamenSeen s .mpam1)

/-- `WriteMPAM1(w)`: MPAMEN is unchanged (10_state.md R30, R48). -/
def writeMPAM1 (w : Word) (s : State) : State := { s with mpam1Rest := w }

/-- An `MRS` that reaches a register: `x[t] <- v`, `pc <- pc + 4` (00_scope.md R13). -/
def moveToX (t : RegNum) (v : Word) (s : State) : Out := complete (writeX s t v)

/-! ### Labels: 10_state.md R28, R45. No instruction consumes one. -/

/-- MPAM information: a PARTID and a PMG (00_scope.md glossary). -/
structure Label where
  partid : BitVec 16
  pmg : BitVec 8
deriving DecidableEq, Repr

/-- The label of the `n`-th memory request of a kind made at a level in a state: the defaults from all
levels while MPAMEN is 0, the fields of MPAM2_EL2 for EL2 while it is 1 (10_state.md R28, R45). The
registers of the other levels are not described, so their labels are free (notes/assumptions/35.md). What
"the MPAM configuration" adds to EL2's label is left open by R28 and R45 (91_not_in_source.md N15): here it
adds nothing, a DESIGN CHOICE (notes/assumptions/44.md). So is that the stored fields and MPAMEN make the
label without FEAT_MPAM too (notes/assumptions/47.md). -/
def mpamLabel (n : Nat) (e : EL) (k : Access) (s : State) : Label :=
  let v : View := .label e k n
  if mpamenSeen s v then
    match e, k with
    | .el2, .data => ⟨m2Seen s v .partidD M2.partidD, m2Seen s v .pmgD M2.pmgD⟩
    | .el2, .instruction => ⟨m2Seen s v .partidI M2.partidI, m2Seen s v .pmgI M2.pmgI⟩
    | _, _ =>
      ⟨(drawAt s (.labelPartid e k n)).extractLsb' 0 16, (drawAt s (.labelPmg e k n)).extractLsb' 0 8⟩
  else ⟨s.cfg.defaultPartid, s.cfg.defaultPmg⟩

end Sys2Proof.Machine
end

