-- ==== Sys2Proof/Machine/Mpam1.lean ====
section
/-! DEFINITION. Family 2: the accessors of MPAM1_EL1 (41_mpam1_el1_access.md R120 to R122), which reach
MPAM1_EL1, MPAM2_EL2 or `NVMem[0x900]` (60_exceptions.md R158). -/

namespace Sys2Proof.Machine

/-- The tests of both accessors of MPAM1_EL1, in the order of their pseudocode (R120 to R122), around
the three accesses they choose from. -/
def accessMpam1 (i : Instr) (s : State) (nvMem mpam2 mpam1 : Out) : Out :=
  if s.cfg.featMPAM then
    match s.pstate.el with
    | .el0 => raise i .undefined s
    | .el1 =>
      unlessTrapLower i s
        (if t2 s then raise i (.systemAccessTrap .el2) s
        else if nv2m s then nvMem
        else mpam1)
    | .el2 => unlessTrapLower i s (if e2h s then mpam2 else mpam1)
    | .el3 => mpam1
  else raise i .undefined s

/-- `MRS <Xt>, MPAM1_EL1` (R121). -/
def execMrsMpam1El1 (t : RegNum) (s : State) : Out :=
  accessMpam1 (.mrsMpam1El1 t) s (readNVMem t s)
    (moveToX t (readMPAM2 .mpam2ViaMpam1 s) s) (moveToX t (readMPAM1 s) s)

/-- `MSR MPAM1_EL1, <Xt>` (R122). -/
def execMsrMpam1El1 (t : RegNum) (s : State) : Out :=
  accessMpam1 (.msrMpam1El1 t) s (writeNVMem t s)
    (complete (writeMPAM2 .mpam2ViaMpam1 (readX s t) s)) (complete (writeMPAM1 (readX s t) s))

end Sys2Proof.Machine
end

