-- ==== Sys2Proof/Machine/Mpam2.lean ====
section
/-! DEFINITION. Family 1: the accessors of MPAM2_EL2 (40_mpam2_el2_access.md R110 to R112). -/

namespace Sys2Proof.Machine

/-- The tests of both accessors of MPAM2_EL2, in the order of their pseudocode (R110 to R112), around
the access itself. -/
def accessMpam2 (i : Instr) (s : State) (access : Out) : Out :=
  if s.cfg.featMPAM then
    match s.pstate.el with
    | .el0 => raise i .undefined s
    | .el1 =>
      if nvt s then unlessTrapLower i s (raise i (.systemAccessTrap .el2) s)
      else raise i .undefined s
    | .el2 => unlessTrapLower i s access
    | .el3 => access
  else raise i .undefined s

/-- `MRS <Xt>, MPAM2_EL2` (R111). -/
def execMrsMpam2El2 (t : RegNum) (s : State) : Out :=
  accessMpam2 (.mrsMpam2El2 t) s (moveToX t (readMPAM2 .mpam2 s) s)

/-- `MSR MPAM2_EL2, <Xt>` (R112). -/
def execMsrMpam2El2 (t : RegNum) (s : State) : Out :=
  accessMpam2 (.msrMpam2El2 t) s (complete (writeMPAM2 .mpam2 (readX s t) s))

end Sys2Proof.Machine
end

