-- ==== Sys2Proof/Machine/Mpam3.lean ====
section
/-! DEFINITION. Family 3: the accessors of MPAM3_EL3 (42_mpam3_el3_access.md R130 to R132; the rules are
general knowledge GK4 adopted by D5, notes/assumptions/1.md). -/

namespace Sys2Proof.Machine

/-- The tests of both accessors of MPAM3_EL3 (R130 to R132), around the access itself. -/
def accessMpam3 (i : Instr) (s : State) (access : Out) : Out :=
  if s.cfg.featMPAM && s.cfg.haveEL3 then
    match s.pstate.el with
    | .el0 => raise i .undefined s
    | .el1 => raise i .undefined s
    | .el2 => raise i .undefined s
    | .el3 => access
  else raise i .undefined s

/-- `MRS <Xt>, MPAM3_EL3` (R131). -/
def execMrsMpam3El3 (t : RegNum) (s : State) : Out :=
  accessMpam3 (.mrsMpam3El3 t) s (moveToX t (readMPAM3 s) s)

/-- `MSR MPAM3_EL3, <Xt>` (R132). -/
def execMsrMpam3El3 (t : RegNum) (s : State) : Out :=
  accessMpam3 (.msrMpam3El3 t) s (complete (writeMPAM3 (readX s t) s))

end Sys2Proof.Machine
end

