-- ==== Sys2Proof/Machine/Dispatch.lean ====
section
/-! DEFINITION. One arm per row of spec/opcode_table.json. -/

namespace Sys2Proof.Machine

def exec (i : Instr) (s : State) : Host.Outcome State Fault Refusal :=
  match i with
  | .mrsMpam2El2 t => Sys2Proof.Machine.execMrsMpam2El2 t s
  | .msrMpam2El2 t => Sys2Proof.Machine.execMsrMpam2El2 t s
  | .mrsMpam1El1 t => Sys2Proof.Machine.execMrsMpam1El1 t s
  | .msrMpam1El1 t => Sys2Proof.Machine.execMsrMpam1El1 t s
  | .mrsMpam3El3 t => Sys2Proof.Machine.execMrsMpam3El3 t s
  | .msrMpam3El3 t => Sys2Proof.Machine.execMsrMpam3El3 t s

end Sys2Proof.Machine
end

