-- ==== Sys2Proof/Machine/Fetch.lean ====
section
/-! DEFINITION. Fetching an instruction, placing one, and the environment's events. -/

namespace Sys2Proof.Machine

/-- The four bytes at an address, if each was written. -/
def readWordBytes (m : List Host.Cell) (a : Nat) : Option (List Byte) :=
  match Memory.read m a, Memory.read m (a + 1), Memory.read m (a + 2), Memory.read m (a + 3) with
  | some b0, some b1, some b2, some b3 => some [b0, b1, b2, b3]
  | _, _, _, _ => none

/-- The instruction at the pc: aligned (20_memory.md R75), in the program text, and one of the six rows
(30_encoding.md R97). No store reaches the text (R79). `next` carries the instruction. -/
def fetch (s : State) : Host.Outcome Instr Fault Refusal :=
  if s.pc.toNat % 4 ≠ 0 then .refused (.misalignedPc s.pc)
  else match readWordBytes s.text s.pc.toNat with
    | none => .fault (.fetchUnwritten s.pc)
    | some bs =>
      match decode bs with
      | .ok (i, _) => .next i
      | .error why => .refused (.notDecoded why)

/-- The memory with a 32-bit word stored at an address, least significant byte first
(20_memory.md R74). -/
def storeWord32 (m : List Host.Cell) (a : Nat) (w : BitVec 32) : List Host.Cell :=
  Memory.writeBytes m a (bytesOfWord w)

/-- What one event of the environment does. -/
def runEvent (e : EnvEvent) (s : State) : Out :=
  match e with
  | .warmReset => nextUnlessRefused (warmReset s)
  | .contextSync => .next (tick (contextSync s))
  | .exceptionReturn advance => exceptionReturn advance s
  | .setInputs inp => nextUnlessRefused (tick { s with inp := inp })

end Sys2Proof.Machine
end

