-- ==== Sys2Proof/Machine/Step.lean ====
section
/-! DEFINITION. One step: an admitted state takes the environment's next event, or runs the instruction
at the pc. -/

namespace Sys2Proof.Machine

/-- One step of the machine. -/
def step (s : State) : Host.Outcome State Fault Refusal :=
  unlessRefused s
    (match s.events with
    | e :: rest => runEvent e { s with events := rest }
    | [] =>
      match fetch s with
      | .next i => exec i s
      | .fault f => .fault f
      | .refused r => .refused r)

/-- The state with an instruction's bits stored where `step` fetches next. -/
def State.withFetchWord (s : State) (nbits w : Nat) : State :=
  { s with text := storeWord32 s.text s.pc.toNat (BitVec.ofNat 32 (w % 2 ^ nbits)) }

end Sys2Proof.Machine
end

