-- ==== Sys2Proof/Safety.lean ====
section
/-! DEFINITION. The terms the statements use: the invariant of the machine, the complete lists of
60_exceptions.md R142 to R144, and the decision tables of 40_mpam2_el2_access.md and
41_mpam1_el1_access.md, written from those texts and not from the meanings. -/

namespace Sys2Proof.Machine

/-- The invariant: the state is one the spec admits, the program text does not overlap NVMem, both
memories are in canonical form, the pc is a multiple of 4 (10_state.md R25, R49, R52, R55; 20_memory.md
R75, R79). -/
def State.Inv (s : State) : Prop :=
  s.admitted = true ∧ textOverlapsNVMem s = false ∧ Memory.wf s.text = true ∧
    Memory.wf s.mem = true ∧ s.pc.toNat % 4 = 0

/-- Every write so far is seen by every read (70_reset_and_hazards.md R176). -/
def State.synced (s : State) : Bool :=
  decide (s.cfg.syncModel = .immediate) || (s.enPending.isEmpty && s.m2Pending.isEmpty)

/-- The four cases (a) to (d) of 60_exceptions.md R142. -/
def trapLowerCase (i : Instr) (s : State) : Bool :=
  match i.sysReg, s.pstate.el with
  | .mpam2El2, .el2 => true
  | .mpam2El2, .el1 => s.inp.el2Enabled && s.inp.hcrNV
  | .mpam1El1, .el1 => true
  | .mpam1El1, .el2 => true
  | _, _ => false

/-- The complete list of 60_exceptions.md R142. -/
def listedTrapEL3 (i : Instr) (s : State) : Bool :=
  s.cfg.featMPAM && s.cfg.haveEL3 && s.traplower && !(s.inp.halted && s.inp.edscrSDD) &&
    trapLowerCase i s

/-- The complete list of 60_exceptions.md R143. -/
def listedTrapEL2 (i : Instr) (s : State) : Bool :=
  s.cfg.featMPAM &&
    match i.sysReg, s.pstate.el with
    | .mpam2El2, .el1 =>
      s.inp.el2Enabled && s.inp.hcrNV && !(s.cfg.haveEL3 && s.traplower)
    | .mpam1El1, .el1 =>
      !(s.cfg.haveEL3 && s.traplower) && (s.inp.el2Enabled && s.m2.trapMpam1El1)
    | _, _ => false

/-- The complete list of 60_exceptions.md R144, its cases (a) to (e). -/
def listedUndefined (i : Instr) (s : State) : Bool :=
  !s.cfg.featMPAM
  || decide (s.pstate.el = .el0)
  || (decide (i.sysReg = .mpam2El2) && decide (s.pstate.el = .el1) &&
      !(s.inp.el2Enabled && s.inp.hcrNV))
  || (trapLowerCase i s && (s.cfg.haveEL3 && s.traplower) &&
      (s.inp.halted && s.inp.edscrSDD))
  || (decide (i.sysReg = .mpam3El3) && (decide (s.pstate.el ≠ .el3) || !s.cfg.haveEL3))

/-- What an accessor reaches when it completes. -/
inductive Reach where
  | mpam1 | mpam2 | mpam3 | nvMem
deriving DecidableEq, Repr

/-- The last column of the decision tables. -/
inductive Verdict where
  | undefined
  | trap (h : HandlerEL)
  | access (r : Reach)
deriving DecidableEq, Repr

/-- The decision table of 40_mpam2_el2_access.md, row by row: the level, NVt, T3, SD. -/
def tableMpam2 : EL → Bool → Bool → Bool → Verdict
  | .el0, _, _, _ => .undefined
  | .el1, false, _, _ => .undefined
  | .el1, true, true, true => .undefined
  | .el1, true, true, false => .trap .el3
  | .el1, true, false, _ => .trap .el2
  | .el2, _, true, true => .undefined
  | .el2, _, true, false => .trap .el3
  | .el2, _, false, _ => .access .mpam2
  | .el3, _, _, _ => .access .mpam2

/-- The decision table of 41_mpam1_el1_access.md, row by row: the level, T3, SD, T2, NV2m, E2H. -/
def tableMpam1 : EL → Bool → Bool → Bool → Bool → Bool → Verdict
  | .el0, _, _, _, _, _ => .undefined
  | .el1, true, true, _, _, _ => .undefined
  | .el1, true, false, _, _, _ => .trap .el3
  | .el1, false, _, true, _, _ => .trap .el2
  | .el1, false, _, false, true, _ => .access .nvMem
  | .el1, false, _, false, false, _ => .access .mpam1
  | .el2, true, true, _, _, _ => .undefined
  | .el2, true, false, _, _, _ => .trap .el3
  | .el2, false, _, _, _, true => .access .mpam2
  | .el2, false, _, _, _, false => .access .mpam1
  | .el3, _, _, _, _, _ => .access .mpam1

/-- The tables' verdict on an instruction in a state: absence first (60_exceptions.md R148), then the
table of its register; the third column of 60_exceptions.md R160's table is MPAM3_EL3's. -/
def verdict (i : Instr) (s : State) : Verdict :=
  if !s.cfg.featMPAM then .undefined
  else match i.sysReg with
    | .mpam2El2 => tableMpam2 s.pstate.el (nvt s) (t3 s) (sd s)
    | .mpam1El1 => tableMpam1 s.pstate.el (t3 s) (sd s) (t2 s) (nv2m s) (e2h s)
    | .mpam3El3 =>
      if s.cfg.haveEL3 then
        match s.pstate.el with
        | .el3 => .access .mpam3
        | _ => .undefined
      else .undefined

/-- The matches of 30_encoding.md R95's table, by register and direction (`true` for `MRS`). -/
def rowMatch : SysReg → Bool → BitVec 32
  | .mpam1El1, true => 0xD538A500#32
  | .mpam1El1, false => 0xD518A500#32
  | .mpam2El2, true => 0xD53CA500#32
  | .mpam2El2, false => 0xD51CA500#32
  | .mpam3El3, true => 0xD53EA500#32
  | .mpam3El3, false => 0xD51EA500#32

/-- The same instruction with another `Rt`. -/
def withRt (i : Instr) (t : RegNum) : Instr :=
  match i with
  | .mrsMpam2El2 _ => .mrsMpam2El2 t
  | .msrMpam2El2 _ => .msrMpam2El2 t
  | .mrsMpam1El1 _ => .mrsMpam1El1 t
  | .msrMpam1El1 _ => .msrMpam1El1 t
  | .mrsMpam3El3 _ => .mrsMpam3El3 t
  | .msrMpam3El3 _ => .msrMpam3El3 t

/-- None of the PARTID and PMG fields of MPAM2_EL2 is above its implemented maximum (D25). -/
def idsInRange (s : State) : Prop :=
  s.m2.pmgD ≤ s.cfg.pmgMax ∧ s.m2.pmgI ≤ s.cfg.pmgMax ∧
    s.m2.partidD ≤ s.cfg.partidMax ∧ s.m2.partidI ≤ s.cfg.partidMax

/-- Where an instruction is fetched: the state is not refused, no event is waiting and the pc is a multiple
of 4. -/
def readyToFetch (s : State) : Prop :=
  s.admitted = true ∧ textOverlapsNVMem s = false ∧ s.events = [] ∧ s.pc.toNat % 4 = 0

/-- Whether the next address is within the address space, so that `Done` is not refused
(10_state.md R55). -/
def roomForNext (s : State) : Bool := decide (s.pc.toNat + 4 < 2 ^ 64)

/-- The general registers X0 to X30 are as before, all but X[t] (all of them for XZR). -/
def sameXBut (t : RegNum) (s s' : State) : Prop := ∀ u, u ≠ t → readX s' u = readX s u

/-- Every MPAM register and its synchronisation is as before. -/
def sameMpam (s s' : State) : Prop :=
  s'.mpamen = s.mpamen ∧ s'.traplower = s.traplower ∧ s'.mpam3Rest = s.mpam3Rest ∧
    s'.m2 = s.m2 ∧ s'.mpam1Rest = s.mpam1Rest

/-- Every exception register, PSTATE and the debugger's error flag are as before. -/
def sameExc (s s' : State) : Prop :=
  s'.exc1 = s.exc1 ∧ s'.exc2 = s.exc2 ∧ s'.exc3 = s.exc3 ∧ s'.pstate = s.pstate ∧
    s'.debugError = s.debugError

/-- The parameters, the inputs, the program text and the environment's queue are as before. -/
def sameGiven (s s' : State) : Prop :=
  s'.cfg = s.cfg ∧ s'.inp = s.inp ∧ s'.text = s.text ∧ s'.events = s.events

/-- Every byte of data memory reads as before. -/
def sameMem (s s' : State) : Prop := ∀ a, Memory.read s'.mem a = Memory.read s.mem a

/-- An outcome moved nothing: no general register, no MPAM register, no byte of memory is changed. Where
an exception is entered, only its entry has written state (60_exceptions.md R149, R150). -/
def movesNothing (s : State) (o : Out) : Prop :=
  ∀ s', o = .next s' → s'.x = s.x ∧ sameMpam s s' ∧ s'.mem = s.mem ∧ s'.nvLog = s.nvLog

/-- Whether an address is one of the eight bytes at NVAddr(0x900). -/
def inNVMem (s : State) (a : Nat) : Prop :=
  (nvAddr s).toNat ≤ a ∧ a < (nvAddr s).toNat + 8

/-- The fields of MPAM2_EL2 with every RES0 bit cleared: [62:59], [57:50] and the bit 58 that is RES0
when TIDR is absent (10_state.md R42). -/
def M2.clearRes (m : M2) : M2 :=
  { m with res62to59 := 0#4, res58 := false, res57to50 := 0#8 }

/-- The state with every stored RES0 bit of MPAM2_EL2 cleared, in the values not yet synchronised
too. -/
def State.clearRes (s : State) : State :=
  { s with
    m2 := s.m2.clearRes
    m2Pending := s.m2Pending.map (fun p => ⟨p.view, p.old.clearRes⟩) }

/-- An outcome with its next state's stored RES0 bits cleared. -/
def clearResOut : Out → Out
  | .next s => .next s.clearRes
  | .fault f => .fault f
  | .refused r => .refused r

end Sys2Proof.Machine
end

