-- ==== Sys2Proof/Certificates/Slice0/Obligations.lean ====
section
/-! DEFINITION. The statements for the provers. Where a docstring says "the spec's choice" or names a
decision or a GK item, the clause rests on what the spec marks as its own, not on the source. -/

open Sys2Proof Sys2Proof.Machine

/-! ### Encoding -/

/-- Every well-formed instruction, encoded, decodes to itself and leaves the bytes after it
(30_encoding.md; the word layout is the spec's choice D6). The encoding of MPAM3_EL3 is its choice D5;
both are notes/assumptions/1.md. -/
def Obligations.DecodeInvertsEncode : Prop :=
  ∀ (i : Instr) (rest : List Byte), i.wellFormed = true → decode (encode i ++ rest) = .ok (i, rest)

/-- Bytes that decode are the encoding of the well-formed instruction they decode to: each word has one
meaning. The word layout is the spec's choice D6, the encoding of MPAM3_EL3 its D5
(notes/assumptions/1.md). -/
def Obligations.EncodeInvertsDecode : Prop :=
  ∀ (bs rest : List Byte) (i : Instr), decode bs = .ok (i, rest) →
    i.wellFormed = true ∧ bs = encode i ++ rest

/-- 30_encoding.md R95: the formula of the word, the match and mask of each row, `t = w[4:0]`, and the six
matches are disjoint (D6, GK10; the row of MPAM3_EL3 is GK4; notes/assumptions/1.md for both). -/
def Obligations.WordsFollowMatchAndMask : Prop :=
  (∀ i : Instr, i.wellFormed = true →
    (encodeWord i).toNat =
      (0xD5000000 ||| (if i.isRead then 1 else 0) <<< 21 ||| i.sysReg.enc.op0.toNat <<< 19 |||
        i.sysReg.enc.op1.toNat <<< 16 ||| i.sysReg.enc.crn.toNat <<< 12 |||
        i.sysReg.enc.crm.toNat <<< 8 ||| i.sysReg.enc.op2.toNat <<< 5 ||| i.rt)) ∧
  (∀ (w : BitVec 32) (i : Instr), decodeWord w = .ok i ↔
    (w &&& 0xFFFFFFE0#32 = rowMatch i.sysReg i.isRead ∧ i.rt = (w &&& 0x1F#32).toNat)) ∧
  (∀ (r r' : SysReg) (d d' : Bool), rowMatch r d = rowMatch r' d' → r = r' ∧ d = d')

/-- Words of 95_test_vectors.md section 2.1 (E1 to E13) decode to what it says, or to nothing. The word
layout is the spec's choice D6 (GK10), and the two words of MPAM3_EL3 are its choice D5 (30_encoding.md
R93, GK4; vector E12 lets a model that takes the source only refuse its word): notes/assumptions/1.md. -/
def Obligations.WrittenOutWordsDecode : Prop :=
  decodeTableWord 32 0xD53CA509 = some (.mrsMpam2El2 9) ∧
  decodeTableWord 32 0xD518A503 = some (.msrMpam1El1 3) ∧
  decodeTableWord 32 0xD538A51F = some (.mrsMpam1El1 31) ∧
  decodeTableWord 32 0xD51CA505 = some (.msrMpam2El2 5) ∧
  decodeTableWord 32 0xD53EA500 = some (.mrsMpam3El3 0) ∧
  decodeTableWord 32 0xD51EA51F = some (.msrMpam3El3 31) ∧
  decodeTableWord 32 0xD53CA520 = none ∧
  decodeTableWord 32 0xD53CA400 = none ∧
  decodeTableWord 32 0xD53DA500 = none

/-- A word that matches no row is refused by the step by name, not run as a no-op and not made UNDEFINED
(30_encoding.md R97, R99, the spec's choice D6, notes/assumptions/37.md). -/
def Obligations.UnknownWordsAreRefused : Prop :=
  ∀ (s : State) (w : BitVec 32), readyToFetch s →
    readWordBytes s.text s.pc.toNat = some (bytesOfWord w) →
    (∀ (r : SysReg) (d : Bool), w &&& 0xFFFFFFE0#32 ≠ rowMatch r d) →
    ∃ why, step s = .refused (.notDecoded why)

/-! ### The step -/

/-- When the bytes at the pc decode to a well-formed instruction, the step is that instruction's
meaning, with nothing around it. -/
def Obligations.StepRunsTheDecodedInstruction : Prop :=
  ∀ (s : State) (bs rest : List Byte) (i : Instr), readyToFetch s →
    readWordBytes s.text s.pc.toNat = some bs → decode bs = .ok (i, rest) →
    i.wellFormed = true → step s = exec i s

/-- A well-formed instruction's word placed with `withFetchWord`, clear of the eight bytes of NVMem
(20_memory.md R79), is what the next step runs. The layout of the word is the spec's choice D6, the
encoding of MPAM3_EL3 its D5 (notes/assumptions/1.md), the place of NVMem its D9
(notes/assumptions/20.md); that placing a word stands for the loading of a program is
notes/assumptions/38.md. -/
def Obligations.PlacedWordsRun : Prop :=
  ∀ (s : State) (i : Instr), readyToFetch s → i.wellFormed = true →
    (s.pc.toNat + 4 ≤ (nvAddr s).toNat ∨ (nvAddr s).toNat + 8 ≤ s.pc.toNat) →
    step (s.withFetchWord 32 (encodeWord i).toNat) =
      exec i (s.withFetchWord 32 (encodeWord i).toNat)

/-- A launch in which the eight bytes at NVAddr(0x900) overlap the program text is refused, by every step
(20_memory.md R79; the refusal's place in the step is notes/assumptions/24.md). The place of NVMem is the
spec's choice D9 (notes/assumptions/20.md). -/
def Obligations.OverlappingLaunchesAreRefused : Prop :=
  ∀ (s : State) (a : Nat) (b : Byte), s.admitted = true → Memory.read s.text a = some b →
    inNVMem s a → step s = .refused .textOverNVMem

/-- Every next state a step answers has made one more round of draws, so that no draw of a later step is
one of an earlier step (00_scope.md R16; the counter is the model's own, notes/assumptions/15.md). -/
def Obligations.EveryStepDrawsAnew : Prop :=
  ∀ s s' : State, step s = .next s' → s'.draws = s.draws + 1

/-- Every step keeps the invariant: a legal, implemented and enabled Exception level, both memories in
canonical form, no program text over NVMem, an aligned pc (10_state.md R49, R52; 20_memory.md R75, R79).
That the steps which would leave it are refused is notes/assumptions/23.md, 24.md and 25.md; the events
are 32.md and 33.md. -/
def Obligations.StepKeepsTheInvariant : Prop :=
  ∀ s s' : State, s.Inv → step s = .next s' → s'.Inv

/-- The state after reset meets the invariant. Its configuration, pc, level, inputs and empty program text
are the model's choice (notes/assumptions/2.md, 7.md, 9.md, 38.md). -/
def Obligations.ResetMeetsTheInvariant : Prop := State.reset.Inv

/-- No step writes the implementation parameters or the program text, and no instruction writes the
read-only inputs or the environment's queue (00_scope.md R5, R6; 10_state.md section 5; 20_memory.md
R79, which speaks of instructions). A Warm reset is a step too: that it leaves the program text and the
parameters standing is the model's choice (notes/assumptions/32.md, unsafe for what is said to stay). -/
def Obligations.GivensAreNeverWritten : Prop :=
  (∀ s s' : State, step s = .next s' → s'.cfg = s.cfg ∧ s'.text = s.text) ∧
  (∀ (i : Instr) (s s' : State), exec i s = .next s' → sameGiven s s')

/-- Only an exception return or a Warm reset lowers the Exception level (10_state.md R49; 60_exceptions.md
R150, R153: the entry is GK19, notes/assumptions/10.md). The entry of an Undefined exception is R152
(GK20); the return is GK21, notes/assumptions/33.md. -/
def Obligations.OnlyReturnOrResetLowersTheLevel : Prop :=
  ∀ s s' : State, step s = .next s' → s'.pstate.el.toNat < s.pstate.el.toNat →
    ∃ rest, s.events = .warmReset :: rest ∨ ∃ advance, s.events = .exceptionReturn advance :: rest

/-! ### The six instructions -/

/-- 40_mpam2_el2_access.md R111, every path, for a register that is present: the access where it completes,
the outcome elsewhere (`raise`: a fault, or the entry of 60_exceptions.md R150 to R152), and on those
paths nothing is moved. -/
def Obligations.MrsMpam2El2Meaning : Prop :=
  ∀ (t : RegNum) (s : State), s.cfg.featMPAM = true →
    (s.pstate.el = .el3 ∨ (s.pstate.el = .el2 ∧ t3 s = false) → roomForNext s = true →
      exec (.mrsMpam2El2 t) s =
        .next { writeX s t (readMPAM2 .mpam2 s) with pc := s.pc + 4#64, draws := s.draws + 1 }) ∧
    (s.pstate.el = .el0 → exec (.mrsMpam2El2 t) s = raise (.mrsMpam2El2 t) .undefined s) ∧
    (s.pstate.el = .el1 → nvt s = false →
      exec (.mrsMpam2El2 t) s = raise (.mrsMpam2El2 t) .undefined s) ∧
    (s.pstate.el = .el1 → nvt s = true → t3 s = false →
      exec (.mrsMpam2El2 t) s = raise (.mrsMpam2El2 t) (.systemAccessTrap .el2) s) ∧
    ((s.pstate.el = .el1 ∧ nvt s = true ∨ s.pstate.el = .el2) → t3 s = true → sd s = true →
      exec (.mrsMpam2El2 t) s = raise (.mrsMpam2El2 t) .undefined s) ∧
    ((s.pstate.el = .el1 ∧ nvt s = true ∨ s.pstate.el = .el2) → t3 s = true → sd s = false →
      exec (.mrsMpam2El2 t) s = raise (.mrsMpam2El2 t) (.systemAccessTrap .el3) s) ∧
    ((∀ r, verdict (.mrsMpam2El2 t) s ≠ .access r) → movesNothing s (exec (.mrsMpam2El2 t) s))

/-- 40_mpam2_el2_access.md R112, every path, for a register that is present: the access where it completes,
the outcome elsewhere (`raise`: a fault, or the entry of 60_exceptions.md R150 to R152), and on those
paths nothing is moved. -/
def Obligations.MsrMpam2El2Meaning : Prop :=
  ∀ (t : RegNum) (s : State), s.cfg.featMPAM = true →
    (s.pstate.el = .el3 ∨ (s.pstate.el = .el2 ∧ t3 s = false) → roomForNext s = true →
      exec (.msrMpam2El2 t) s =
        .next { writeMPAM2 .mpam2 (readX s t) s with pc := s.pc + 4#64, draws := s.draws + 1 }) ∧
    (s.pstate.el = .el0 → exec (.msrMpam2El2 t) s = raise (.msrMpam2El2 t) .undefined s) ∧
    (s.pstate.el = .el1 → nvt s = false →
      exec (.msrMpam2El2 t) s = raise (.msrMpam2El2 t) .undefined s) ∧
    (s.pstate.el = .el1 → nvt s = true → t3 s = false →
      exec (.msrMpam2El2 t) s = raise (.msrMpam2El2 t) (.systemAccessTrap .el2) s) ∧
    ((s.pstate.el = .el1 ∧ nvt s = true ∨ s.pstate.el = .el2) → t3 s = true → sd s = true →
      exec (.msrMpam2El2 t) s = raise (.msrMpam2El2 t) .undefined s) ∧
    ((s.pstate.el = .el1 ∧ nvt s = true ∨ s.pstate.el = .el2) → t3 s = true → sd s = false →
      exec (.msrMpam2El2 t) s = raise (.msrMpam2El2 t) (.systemAccessTrap .el3) s) ∧
    ((∀ r, verdict (.msrMpam2El2 t) s ≠ .access r) → movesNothing s (exec (.msrMpam2El2 t) s))

/-- 41_mpam1_el1_access.md R121, every path, for a register that is present: the access where it completes,
the outcome elsewhere (`raise`: a fault, or the entry of 60_exceptions.md R150 to R152), and on those
paths nothing is moved. The read of NVMem[0x900] (20_memory.md R71, R73) is the spec's choice D9: its value
is notes/assumptions/18.md, its place 20.md, and that it completes without a fault, which R121 does not
promise, is 21.md (unsafe). -/
def Obligations.MrsMpam1El1Meaning : Prop :=
  ∀ (t : RegNum) (s : State), s.cfg.featMPAM = true →
    (s.pstate.el = .el3 ∨ (s.pstate.el = .el2 ∧ t3 s = false ∧ e2h s = false) ∨
        (s.pstate.el = .el1 ∧ t3 s = false ∧ t2 s = false ∧ nv2m s = false) →
      roomForNext s = true →
      exec (.mrsMpam1El1 t) s =
        .next { writeX s t (readMPAM1 s) with pc := s.pc + 4#64, draws := s.draws + 1 }) ∧
    (s.pstate.el = .el2 → t3 s = false → e2h s = true → roomForNext s = true →
      exec (.mrsMpam1El1 t) s =
        .next { writeX s t (readMPAM2 .mpam2ViaMpam1 s) with
          pc := s.pc + 4#64, draws := s.draws + 1 }) ∧
    (s.pstate.el = .el1 → t3 s = false → t2 s = false → nv2m s = true → roomForNext s = true →
      exec (.mrsMpam1El1 t) s =
        .next { writeX s t (nvValue s) with
          pc := s.pc + 4#64
          draws := s.draws + 1
          nvLog := .read (nvAddr s).toNat (nvValue s) :: s.nvLog }) ∧
    (s.pstate.el = .el0 → exec (.mrsMpam1El1 t) s = raise (.mrsMpam1El1 t) .undefined s) ∧
    (s.pstate.el = .el1 → t3 s = false → t2 s = true →
      exec (.mrsMpam1El1 t) s = raise (.mrsMpam1El1 t) (.systemAccessTrap .el2) s) ∧
    (s.pstate.el = .el1 ∨ s.pstate.el = .el2 → t3 s = true → sd s = true →
      exec (.mrsMpam1El1 t) s = raise (.mrsMpam1El1 t) .undefined s) ∧
    (s.pstate.el = .el1 ∨ s.pstate.el = .el2 → t3 s = true → sd s = false →
      exec (.mrsMpam1El1 t) s = raise (.mrsMpam1El1 t) (.systemAccessTrap .el3) s) ∧
    ((∀ r, verdict (.mrsMpam1El1 t) s ≠ .access r) → movesNothing s (exec (.mrsMpam1El1 t) s))

/-- 41_mpam1_el1_access.md R122, every path, for a register that is present: the access where it completes,
the outcome elsewhere (`raise`: a fault, or the entry of 60_exceptions.md R150 to R152), and on those
paths nothing is moved. That a write which reaches MPAM1_EL1 leaves MPAMEN alone (10_state.md R30, R48) is
the spec's choice D16, notes/assumptions/29.md; the place of NVMem and that its access cannot fault are D9,
notes/assumptions/20.md and 21.md. -/
def Obligations.MsrMpam1El1Meaning : Prop :=
  ∀ (t : RegNum) (s : State), s.cfg.featMPAM = true →
    (s.pstate.el = .el3 ∨ (s.pstate.el = .el2 ∧ t3 s = false ∧ e2h s = false) ∨
        (s.pstate.el = .el1 ∧ t3 s = false ∧ t2 s = false ∧ nv2m s = false) →
      roomForNext s = true →
      exec (.msrMpam1El1 t) s =
        .next { s with mpam1Rest := readX s t, pc := s.pc + 4#64, draws := s.draws + 1 }) ∧
    (s.pstate.el = .el2 → t3 s = false → e2h s = true → roomForNext s = true →
      exec (.msrMpam1El1 t) s =
        .next { writeMPAM2 .mpam2ViaMpam1 (readX s t) s with
          pc := s.pc + 4#64, draws := s.draws + 1 }) ∧
    (s.pstate.el = .el1 → t3 s = false → t2 s = false → nv2m s = true → roomForNext s = true →
      exec (.msrMpam1El1 t) s =
        .next { s with
          mem := nvStore s (readX s t)
          nvLog := .write (nvAddr s).toNat (readX s t) :: s.nvLog
          pc := s.pc + 4#64
          draws := s.draws + 1 }) ∧
    (s.pstate.el = .el0 → exec (.msrMpam1El1 t) s = raise (.msrMpam1El1 t) .undefined s) ∧
    (s.pstate.el = .el1 → t3 s = false → t2 s = true →
      exec (.msrMpam1El1 t) s = raise (.msrMpam1El1 t) (.systemAccessTrap .el2) s) ∧
    (s.pstate.el = .el1 ∨ s.pstate.el = .el2 → t3 s = true → sd s = true →
      exec (.msrMpam1El1 t) s = raise (.msrMpam1El1 t) .undefined s) ∧
    (s.pstate.el = .el1 ∨ s.pstate.el = .el2 → t3 s = true → sd s = false →
      exec (.msrMpam1El1 t) s = raise (.msrMpam1El1 t) (.systemAccessTrap .el3) s) ∧
    ((∀ r, verdict (.msrMpam1El1 t) s ≠ .access r) → movesNothing s (exec (.msrMpam1El1 t) s))

/-- 42_mpam3_el3_access.md R131, every path, for a register that is present. The rule is the spec's
choice D5 from GK4 (notes/assumptions/1.md). -/
def Obligations.MrsMpam3El3Meaning : Prop :=
  ∀ (t : RegNum) (s : State), s.cfg.featMPAM = true → s.cfg.haveEL3 = true →
    (s.pstate.el = .el3 → roomForNext s = true →
      exec (.mrsMpam3El3 t) s =
        .next { writeX s t (readMPAM3 s) with pc := s.pc + 4#64, draws := s.draws + 1 }) ∧
    (s.pstate.el ≠ .el3 → exec (.mrsMpam3El3 t) s = raise (.mrsMpam3El3 t) .undefined s)

/-- 42_mpam3_el3_access.md R132, every path, for a register that is present. The rule is the spec's
choice D5 from GK4 (notes/assumptions/1.md). Beside the register and the pc, the MPAMEN before the write
goes, with the path it was made through, on the list `enPending` of unsynchronised writes
(70_reset_and_hazards.md R176, GK24; that such a list stands for R176 is DEDUCED,
notes/assumptions/16.md), and the model's draw counter advances (notes/assumptions/15.md). -/
def Obligations.MsrMpam3El3Meaning : Prop :=
  ∀ (t : RegNum) (s : State), s.cfg.featMPAM = true → s.cfg.haveEL3 = true →
    (s.pstate.el = .el3 → roomForNext s = true →
      exec (.msrMpam3El3 t) s =
        .next { s with
          mpamen := (readX s t).getLsbD 63
          enPending := ⟨.mpam3, s.mpamen⟩ :: s.enPending
          traplower := (readX s t).getLsbD s.cfg.traplowerBit.val
          mpam3Rest := readX s t
          pc := s.pc + 4#64
          draws := s.draws + 1 }) ∧
    (s.pstate.el ≠ .el3 → exec (.msrMpam3El3 t) s = raise (.msrMpam3El3 t) .undefined s)

/-- An accessor of an absent register is UNDEFINED at every level, before any other test (30_encoding.md
R98; the order and the registers other than MPAM2_EL2 are the spec's choices D18, D26,
notes/assumptions/30.md). The accessors of MPAM3_EL3 are the spec's choice D5 (1.md). -/
def Obligations.AbsentRegistersAreUndefined : Prop :=
  ∀ (i : Instr) (s : State),
    (s.cfg.featMPAM = false ∨ (i.sysReg = .mpam3El3 ∧ s.cfg.haveEL3 = false)) →
    exec i s = raise i .undefined s

/-- At the top of the address space an instruction that would complete is refused by name (10_state.md
R55, the spec's choice D22, notes/assumptions/22.md). That an NVMem access takes no fault of its own first
is the spec's choice D9 (notes/assumptions/21.md, unsafe); the accessors of MPAM3_EL3 are its D5 (1.md).
-/
def Obligations.CompletingAtTheTopIsRefused : Prop :=
  ∀ (i : Instr) (s : State) (r : Reach), verdict i s = .access r → roomForNext s = false →
    exec i s = .refused .pcWrap

/-! ### Outcomes -/

/-- The complete list of SystemAccessTrap(EL3, 0x18) (60_exceptions.md R142, which the spec derives from
R111, R112, R121, R122). That an absent register traps nowhere is the spec's choice D18, D26
(notes/assumptions/30.md). That the accessors of MPAM3_EL3 trap nowhere is its choice D5 (R131, R132,
notes/assumptions/1.md); the trap tests use the current controls (70_reset_and_hazards.md R176,
notes/assumptions/17.md). -/
def Obligations.TrapsToEL3AreTheListed : Prop :=
  ∀ (i : Instr) (s : State),
    (listedTrapEL3 i s = true → exec i s = raise i (.systemAccessTrap .el3) s) ∧
    (s.cfg.onException = .stop →
      (exec i s = .fault (.systemAccessTrap i .el3 0x18#6) ↔ listedTrapEL3 i s = true))

/-- The complete list of SystemAccessTrap(EL2, 0x18) (60_exceptions.md R143, derived by the spec). That an
absent register traps nowhere is the spec's choice D18, D26 (notes/assumptions/30.md). That the accessors
of MPAM3_EL3 trap nowhere is its choice D5 (R131, R132, notes/assumptions/1.md); the trap tests use the
current controls (70_reset_and_hazards.md R176, notes/assumptions/17.md). -/
def Obligations.TrapsToEL2AreTheListed : Prop :=
  ∀ (i : Instr) (s : State),
    (listedTrapEL2 i s = true → exec i s = raise i (.systemAccessTrap .el2) s) ∧
    (s.cfg.onException = .stop →
      (exec i s = .fault (.systemAccessTrap i .el2 0x18#6) ↔ listedTrapEL2 i s = true))

/-- The complete list of Undefined (60_exceptions.md R144, derived by the spec). Its case (a) is the spec's
choice D18 for MPAM1_EL1 and MPAM3_EL3, with the order D26 (notes/assumptions/30.md, unsafe for a claim that
names the exact outcome); its case (e) is D5 (notes/assumptions/1.md). -/
def Obligations.UndefinedAccessesAreTheListed : Prop :=
  ∀ (i : Instr) (s : State),
    (listedUndefined i s = true → exec i s = raise i .undefined s) ∧
    (s.cfg.onException = .stop →
      (exec i s = .fault (.undefined i) ↔ listedUndefined i s = true))

/-- An instruction ends in exactly one way: the three lists exclude each other, and an instruction on none
of them completes with `pc + 4` (60_exceptions.md R140). That an NVMem[0x900] access off the lists
completes without a fault, which 41_mpam1_el1_access.md R121 does not promise, is the spec's choice D9
(20_memory.md R73; notes/assumptions/21.md, DESIGN CHOICE, unsafe); the outcomes of the accessors of
MPAM3_EL3 are its D5 (R131, R132, notes/assumptions/1.md); that an absent register is Undefined before any
other test is its D26, and of the registers other than MPAM2_EL2 its D18 (R98, notes/assumptions/30.md).
-/
def Obligations.EveryInstructionHasOneOutcome : Prop :=
  ∀ (i : Instr) (s : State),
    (listedUndefined i s && listedTrapEL3 i s) = false ∧
    (listedUndefined i s && listedTrapEL2 i s) = false ∧
    (listedTrapEL3 i s && listedTrapEL2 i s) = false ∧
    (listedUndefined i s = false → listedTrapEL3 i s = false → listedTrapEL2 i s = false →
      roomForNext s = true → ∃ s', exec i s = .next s' ∧ s'.pc = s.pc + 4#64 ∧ sameExc s s')

/-- 60_exceptions.md R145: in Debug state with EDSCR.SDD the access that TRAPLOWER would send to EL3 is
UNDEFINED, otherwise it traps; the traps to EL2 have no such exception. -/
def Obligations.DebugExceptionToTraplower : Prop :=
  ∀ (i : Instr) (s : State), s.cfg.featMPAM = true →
    (s.cfg.haveEL3 = true → s.traplower = true → trapLowerCase i s = true →
      (s.inp.halted = true ∧ s.inp.edscrSDD = true → exec i s = raise i .undefined s) ∧
      (¬(s.inp.halted = true ∧ s.inp.edscrSDD = true) →
        exec i s = raise i (.systemAccessTrap .el3) s)) ∧
    (listedTrapEL2 i s = true → ∀ h d : Bool,
      let s' := { s with inp := { s.inp with halted := h, edscrSDD := d } }
      exec i s' = raise i (.systemAccessTrap .el2) s')

/-- While TRAPLOWER is 1 with EL3, no accessor moves anything at EL1 or EL2: no general register, MPAM
register or byte of memory changes (60_exceptions.md R156; 10_state.md R23). That the accessors of
MPAM3_EL3 are Undefined there is the spec's choice D5 (42_mpam3_el3_access.md R131, R132,
notes/assumptions/1.md); an accessor of MPAM2_EL2 at EL1 without EL2Enabled() and HCR_EL2.NV is Undefined
by R111 and R112, one of the listed accesses under the debug exception by R145, and every accessor without
FEAT_MPAM by R98 (D18, D26, notes/assumptions/30.md). That an Undefined or trapped access moves nothing is
R149; where exceptions are entered, the entry is R150 and R152 (GK19, GK20, notes/assumptions/10.md, in
Debug state 13.md and 14.md). The current TRAPLOWER is tested (70_reset_and_hazards.md R176, 17.md). -/
def Obligations.TraplowerShutsOutLowerLevels : Prop :=
  ∀ (i : Instr) (s s' : State), t3 s = true → (s.pstate.el = .el1 ∨ s.pstate.el = .el2) →
    exec i s = .next s' → s'.x = s.x ∧ sameMpam s s' ∧ s'.mem = s.mem ∧ s'.nvLog = s.nvLog

/-- At EL3 every accessor completes, whatever the controls hold (60_exceptions.md R160;
70_reset_and_hazards.md R172). For MPAM3_EL3 that is the spec's choice D5 (R131, R132,
notes/assumptions/1.md). -/
def Obligations.EL3ReachesEveryRegister : Prop :=
  ∀ (i : Instr) (s : State), s.cfg.featMPAM = true → s.cfg.haveEL3 = true →
    s.pstate.el = .el3 → roomForNext s = true →
    ∃ s', exec i s = .next s' ∧ s'.pc = s.pc + 4#64 ∧ sameExc s s' ∧ sameMem s s'

/-- While EL2 is not enabled, no control of MPAM2_EL2 acts and no accessor traps to EL2 (10_state.md R26).
That the accessors of MPAM3_EL3 trap nowhere is the spec's choice D5 (notes/assumptions/1.md); the terms
of TIDR and TRAPMPAM0EL1 are notes/assumptions/36.md. -/
def Obligations.DisabledEL2TrapsNothing : Prop :=
  ∀ (i : Instr) (s : State), s.inp.el2Enabled = false →
    t2 s = false ∧ tidrActs s = false ∧ trapMpam0Acts s = false ∧
    verdict i s ≠ .trap .el2 ∧ (∀ c, exec i s ≠ .fault (.systemAccessTrap i .el2 c))

/-! ### Exceptions -/

/-- Entry of a trapped access, where exceptions are entered (notes/assumptions/10.md): what is saved, the
new mode, the vector (60_exceptions.md R150, GK19), the lists of unsynchronised writes emptied
(70_reset_and_hazards.md R176, GK24), and nothing else but the model's draw counter
(notes/assumptions/15.md). That Debug state makes no difference is notes/assumptions/14.md (DEDUCED), and
that a vector past the top of the address space wraps is notes/assumptions/45.md (DESIGN CHOICE). The
layouts of ESR and SPSR are notes/assumptions/11.md. -/
def Obligations.TrapEntrySavesAndVectors : Prop :=
  ∀ (i : Instr) (h : HandlerEL) (s : State), s.cfg.onException = .enter →
    s.pstate.el.toNat < h.toEL.toNat →
    ∃ s', raise i (.systemAccessTrap h) s = .next s' ∧
      bank s' h = ⟨trapEsr i, s.pc, s.pstate⟩ ∧ (∀ k, k ≠ h → bank s' k = bank s k) ∧
      s'.pstate = ⟨h.toEL, true, true, true, true, true⟩ ∧
      s'.pc = vbar s.cfg h + 0x400#64 ∧ s'.enPending = [] ∧ s'.m2Pending = [] ∧
      s'.x = s.x ∧ sameMpam s s' ∧ sameGiven s s' ∧ s'.mem = s.mem ∧
      s'.debugError = s.debugError ∧ s'.nvLog = s.nvLog ∧ s'.draws = s.draws + 1

/-- 60_exceptions.md R151 (GK18): the fields of ISS, its value for the accessors that trap, and ESR. The
encoding of MPAM3_EL3 in ISS is the spec's choice D5 (R93, notes/assumptions/1.md). -/
def Obligations.SyndromeOfATrappedAccess : Prop :=
  ∀ i : Instr, i.wellFormed = true →
    (accessIss i).extractLsb' 22 3 = 0#3 ∧
    (accessIss i).extractLsb' 20 2 = i.sysReg.enc.op0 ∧
    (accessIss i).extractLsb' 17 3 = i.sysReg.enc.op2 ∧
    (accessIss i).extractLsb' 14 3 = i.sysReg.enc.op1 ∧
    (accessIss i).extractLsb' 10 4 = i.sysReg.enc.crn ∧
    ((accessIss i).extractLsb' 5 5).toNat = i.rt ∧
    (accessIss i).extractLsb' 1 4 = i.sysReg.enc.crm ∧
    (accessIss i).getLsbD 0 = i.isRead ∧
    (i.sysReg = .mpam2El2 →
      (accessIss i).toNat = (0x31280A ||| i.rt <<< 5 ||| (if i.isRead then 1 else 0))) ∧
    (i.sysReg = .mpam1El1 →
      (accessIss i).toNat = (0x30280A ||| i.rt <<< 5 ||| (if i.isRead then 1 else 0))) ∧
    (trapEsr i).toNat = (0x62000000 ||| (accessIss i).toNat)

/-- An Undefined exception, where exceptions are entered (notes/assumptions/10.md): its target by the level
and TGE, EC 0x00 and the vector from the same level (60_exceptions.md R152, GK20; the rest of ESR is
notes/assumptions/12.md); the saved ELR and SPSR, the masks and the vector 0x400 from EL0 as R150 gives them
for a trap (GK19, notes/assumptions/11.md); the lists of unsynchronised writes emptied
(70_reset_and_hazards.md R176). A vector past the top of the address space wraps
(notes/assumptions/45.md). In Debug state, beside the model's draw counter, only the error flag changes
(notes/assumptions/13.md, 15.md). -/
def Obligations.UndefinedEntrySavesAndVectors : Prop :=
  ∀ (i : Instr) (s : State), s.cfg.onException = .enter →
    (s.inp.halted = true → raise i .undefined s =
      .next { s with debugError := true, draws := s.draws + 1 }) ∧
    (s.inp.halted = false → ∃ (s' : State) (h : HandlerEL), raise i .undefined s = .next s' ∧
      (s.pstate.el = .el0 → h = if s.inp.el2Enabled && s.inp.hcrTGE then .el2 else .el1) ∧
      (s.pstate.el ≠ .el0 → h.toEL = s.pstate.el) ∧
      (bank s' h).esr.extractLsb' 26 6 = 0x00#6 ∧ (bank s' h).elr = s.pc ∧
      (bank s' h).spsr = s.pstate ∧ (∀ k, k ≠ h → bank s' k = bank s k) ∧
      s'.pstate = ⟨h.toEL, true, true, true, true, true⟩ ∧
      s'.pc = vbar s.cfg h + (if s.pstate.el = .el0 then 0x400#64
        else if s.pstate.sp then 0x200#64 else 0x000#64) ∧
      s'.enPending = [] ∧ s'.m2Pending = [] ∧
      s'.x = s.x ∧ sameMpam s s' ∧ sameGiven s s' ∧ s'.mem = s.mem ∧
      s'.debugError = s.debugError ∧ s'.nvLog = s.nvLog)

/-- An instruction that does not complete has performed none of its effects (60_exceptions.md R149,
derived by the spec). Where exceptions are entered: an Undefined in Debug state sets the error flag and
nothing else of the machine (R152; that the pc and PSTATE stay is notes/assumptions/13.md), and any other
saves the instruction's own address and PSTATE (R150, R152: GK19, GK20, notes/assumptions/10.md), a trap
in Debug state among them, which is DEDUCED and unsafe (notes/assumptions/14.md). The lists are those of
R142 to R144: case (a) of R144 is the spec's D18 for the registers other than MPAM2_EL2, with the order
D26 (R98, notes/assumptions/30.md), its case (e) D5 (R131, R132, notes/assumptions/1.md). -/
def Obligations.TrapsArePrecise : Prop :=
  ∀ (i : Instr) (s s' : State), exec i s = .next s' →
    (listedUndefined i s || listedTrapEL3 i s || listedTrapEL2 i s) = true →
    s'.x = s.x ∧ sameMpam s s' ∧ s'.mem = s.mem ∧ s'.nvLog = s.nvLog ∧ sameGiven s s' ∧
    (s.inp.halted = true → listedUndefined i s = true →
      s' = { s with debugError := true, draws := s.draws + 1 }) ∧
    (¬(s.inp.halted = true ∧ listedUndefined i s = true) →
      ∃ h, (bank s' h).elr = s.pc ∧ (bank s' h).spsr = s.pstate ∧ s'.pstate.el = h.toEL)

/-- A handler's exception return undoes the entry: PSTATE and the pc are the trapped instruction's, or
its successor's if the handler has advanced ELR (60_exceptions.md R153, GK21;
notes/assumptions/33.md). -/
def Obligations.ReturnUndoesEntry : Prop :=
  ∀ (h : HandlerEL) (esr : BitVec 32) (advance : Bool) (s : State), s.admitted = true →
    s.pc.toNat % 4 = 0 → s.pstate.el.toNat ≤ h.toEL.toNat → textOverlapsNVMem s = false →
    (advance = true → roomForNext s = true) →
    ∃ s', exceptionReturn advance (enterException h esr s) = .next s' ∧
      s'.pstate = s.pstate ∧ s'.pc = (if advance then s.pc + 4#64 else s.pc) ∧
      s'.x = s.x ∧ sameMpam s s' ∧ sameGiven s s' ∧ s'.mem = s.mem

/-! ### The registers -/

/-- The value a synchronised read of MPAM2_EL2 returns, bit group by bit group, RES0 bits by their mode
(10_state.md R43, derived by the spec; RES0 is D14, the maxima D25). D14 is notes/assumptions/26.md, D25
28.md. -/
def Obligations.ReadMpam2ShowsTheBitGroups : Prop :=
  ∀ (v : View) (s : State), s.synced = true → idsInRange s →
    let r := readMPAM2 v s
    r.getLsbD 63 = s.mpamen ∧
    r.extractLsb' 59 4 = (if s.cfg.res0Mode = .stored then s.m2.res62to59 else 0#4) ∧
    r.getLsbD 58 = (if s.cfg.tidrPresent then s.m2.tidr
      else decide (s.cfg.res0Mode = .stored) && s.m2.res58) ∧
    r.extractLsb' 50 8 = (if s.cfg.res0Mode = .stored then s.m2.res57to50 else 0#8) ∧
    r.getLsbD 49 = s.m2.trapMpam0El1 ∧ r.getLsbD 48 = s.m2.trapMpam1El1 ∧
    r.extractLsb' 40 8 = s.m2.pmgD ∧ r.extractLsb' 32 8 = s.m2.pmgI ∧
    r.extractLsb' 16 16 = s.m2.partidD ∧ r.extractLsb' 0 16 = s.m2.partidI

/-- What a write of MPAM2_EL2 does to each field (10_state.md R44, derived by the spec). RES0 bits go by
their mode, D14 (notes/assumptions/26.md). -/
def Obligations.WriteMpam2FiltersByField : Prop :=
  ∀ (v : View) (w : Word) (s : State),
    let s' := writeMPAM2 v w s
    s'.mpamen = (if s.cfg.haveEL3 then s.mpamen else w.getLsbD 63) ∧
    s'.m2.res62to59 = (if s.cfg.res0Mode = .stored then w.extractLsb' 59 4 else s.m2.res62to59) ∧
    s'.m2.res57to50 = (if s.cfg.res0Mode = .stored then w.extractLsb' 50 8 else s.m2.res57to50) ∧
    s'.m2.tidr = (if s.cfg.tidrPresent then w.getLsbD 58 else s.m2.tidr) ∧
    s'.m2.res58 = (if s.cfg.tidrPresent = false ∧ s.cfg.res0Mode = .stored then w.getLsbD 58
      else s.m2.res58) ∧
    s'.m2.trapMpam0El1 = w.getLsbD 49 ∧ s'.m2.trapMpam1El1 = w.getLsbD 48 ∧
    s'.m2.pmgD = w.extractLsb' 40 8 ∧ s'.m2.pmgI = w.extractLsb' 32 8 ∧
    s'.m2.partidD = w.extractLsb' 16 16 ∧ s'.m2.partidI = w.extractLsb' 0 16

/-- The read-after-write identity of MPAM2_EL2 through one path: the value under WMASK, with the current
MPAMEN in bit 63 (10_state.md, after R44, derived by the spec; with the maxima of D25 at the fields' full
width). The fields need no synchronisation (70_reset_and_hazards.md R176 (a)); MPAMEN does where this
write does not write it, with EL3. D25 is notes/assumptions/28.md, RES0 bits by their mode D14 (26.md),
the path R176 (16.md). -/
def Obligations.Mpam2ReadsBackWhatWasWritten : Prop :=
  ∀ (v : View) (w : Word) (s : State), s.cfg.partidMax = 0xFFFF#16 → s.cfg.pmgMax = 0xFF#8 →
    (s.cfg.haveEL3 = false ∨ s.synced = true) →
    let s' := writeMPAM2 v w s
    readMPAM2 v s' =
      (w &&& (if s.cfg.res0Mode = .stored then 0x7FFFFFFFFFFFFFFF#64
        else if s.cfg.tidrPresent then 0x0403FFFFFFFFFFFF#64 else 0x0003FFFFFFFFFFFF#64)) |||
        ((BitVec.ofBool s'.mpamen).setWidth 64 <<< 63)

/-- With EL3, no write through MPAM2_EL2 or through MPAM1_EL1 redirected to it changes MPAMEN, at any level
(10_state.md R29); nor does a write that reaches MPAM1_EL1 itself, which is R30's choice D16
(notes/assumptions/29.md). The field, once writes are synchronised (70_reset_and_hazards.md R176;
notes/assumptions/16.md), reads the current MPAMEN. Without EL3 a write that reaches MPAM2_EL2 makes bit 63
of the value the new MPAMEN (R29). -/
def Obligations.Mpam2EnableIsReadOnlyUnderEL3 : Prop :=
  (∀ (t : RegNum) (s s' : State), s.cfg.haveEL3 = true →
    (exec (.msrMpam2El2 t) s = .next s' ∨ exec (.msrMpam1El1 t) s = .next s') →
    s'.mpamen = s.mpamen) ∧
  (∀ (v : View) (s : State), s.synced = true → (readMPAM2 v s).getLsbD 63 = s.mpamen) ∧
  (∀ (t : RegNum) (s : State), s.cfg.haveEL3 = false → s.cfg.featMPAM = true →
    roomForNext s = true →
    (s.pstate.el = .el2 ∨ s.pstate.el = .el3 → ∃ s', exec (.msrMpam2El2 t) s = .next s' ∧
      s'.mpamen = (readX s t).getLsbD 63) ∧
    (s.pstate.el = .el2 → e2h s = true → ∃ s', exec (.msrMpam1El1 t) s = .next s' ∧
      s'.mpamen = (readX s t).getLsbD 63))

/-- The three registers show one MPAMEN once writes are synchronised (10_state.md R30; its write rights
are D16). -/
def Obligations.ThreeViewsShareOneEnable : Prop :=
  ∀ s : State, s.synced = true →
    (readMPAM3 s).getLsbD 63 = s.mpamen ∧ (readMPAM1 s).getLsbD 63 = s.mpamen ∧
    (readMPAM2 .mpam2 s).getLsbD 63 = s.mpamen ∧
    (readMPAM2 .mpam2ViaMpam1 s).getLsbD 63 = s.mpamen

/-- Who changes MPAMEN: an MSR of MPAM3_EL3 at EL3, or without EL3 a write that reaches MPAM2_EL2; no
other instruction (10_state.md R22, R29). R30's exclusion of MPAM1_EL1 is the spec's choice D16
(notes/assumptions/29.md); that MPAM3_EL3 has an MSR, which works at EL3 only, is its choice D5
(42_mpam3_el3_access.md R132 corner case 1, notes/assumptions/1.md). That an instruction which does not
complete changes nothing of it is R149 (notes/assumptions/10.md for the entry, 30.md for an absent
register). -/
def Obligations.OnlyItsOwnerChangesTheEnable : Prop :=
  ∀ (i : Instr) (s s' : State), exec i s = .next s' → s'.mpamen ≠ s.mpamen →
    i.isRead = false ∧
    ((s.cfg.haveEL3 = true ∧ i.sysReg = .mpam3El3 ∧ s.pstate.el = .el3) ∨
      (s.cfg.haveEL3 = false ∧ verdict i s = .access .mpam2))

/-- Who changes TRAPLOWER and the rest of MPAM3_EL3: an MSR of MPAM3_EL3 at EL3, alone
(42_mpam3_el3_access.md R132 corner case 1, the spec's choice D5, notes/assumptions/1.md). That an
instruction which does not complete changes nothing of them is R149 (notes/assumptions/10.md for the
entry, 30.md for an absent register). -/
def Obligations.OnlyEL3ChangesMpam3 : Prop :=
  ∀ (i : Instr) (s s' : State), exec i s = .next s' →
    (s'.traplower ≠ s.traplower ∨ s'.mpam3Rest ≠ s.mpam3Rest) →
    ∃ t, i = .msrMpam3El3 t ∧ s.pstate.el = .el3 ∧ s.cfg.haveEL3 = true ∧ s.cfg.featMPAM = true

/-- MPAM3_EL3 read back after a write, synchronised or not: bit 63 and the TRAPLOWER bit always, the other
bits by the layout where one is given (10_state.md R24, the spec's choices D3, D4). D3 is
notes/assumptions/3.md, D4 27.md, RES0 bits by their mode D14 (26.md); a read through the path of the
write needs no synchronisation (70_reset_and_hazards.md R176 (a), 16.md). -/
def Obligations.Mpam3ReadsBackWhatWasWritten : Prop :=
  ∀ (w : Word) (s : State),
    let r := readMPAM3 (writeMPAM3 w s)
    r.getLsbD 63 = w.getLsbD 63 ∧
    r.getLsbD s.cfg.traplowerBit.val = w.getLsbD s.cfg.traplowerBit.val ∧
    ∀ l, s.cfg.mpam3Layout = some l → ∀ n, n < 63 → n ≠ s.cfg.traplowerBit.val →
      r.getLsbD n = (w.getLsbD n && (l.rw.getLsbD n || decide (s.cfg.res0Mode = .stored)))

/-- A read of MPAMEN, or of any field or group of fields of MPAM2_EL2, shows the current value or the value
before one of the writes not yet synchronised and made through another path; after a context
synchronisation event, and after a write through the read's own path, the current one
(70_reset_and_hazards.md R176, GK24, D23; notes/assumptions/16.md). -/
def Obligations.UnsynchronisedReadsAreOldOrNew : Prop :=
  ∀ (v : View) (s : State),
    (mpamenSeen s v = s.mpamen ∨ ∃ p ∈ s.enPending, p.view ≠ v ∧ mpamenSeen s v = p.old) ∧
    mpamenSeen (contextSync s) v = s.mpamen ∧
    (∀ b, mpamenSeen (writeMpamen v b s) v = b) ∧
    ∀ (α : Type) (f : M2Field) (get : M2 → α),
      (m2Seen s v f get = get s.m2 ∨
        ∃ p ∈ s.m2Pending, p.view ≠ v ∧ m2Seen s v f get = get p.old) ∧
      m2Seen (contextSync s) v f get = get s.m2 ∧
      ∀ w, m2Seen (writeMPAM2 v w s) v f get = get (m2Written s.cfg w s.m2)

/-- Two reads of MPAM2_EL2 with no write between them return the same value, and the first changes nothing
but its register, the pc and the draw counter (20_memory.md R82). With PARTID and PMG within their maxima
(D25, notes/assumptions/28.md); what a read changes is 43.md. -/
def Obligations.RepeatedReadsAgree : Prop :=
  ∀ (t u : RegNum) (s s₁ s₂ : State), t < 31 → u < 31 → t ≠ u → s.synced = true → idsInRange s →
    verdict (.mrsMpam2El2 t) s = .access .mpam2 →
    exec (.mrsMpam2El2 t) s = .next s₁ → exec (.mrsMpam2El2 u) s₁ = .next s₂ →
    readX s₂ u = readX s₂ t ∧ sameXBut t s s₁ ∧
      s₁ = { s with x := s₁.x, pc := s.pc + 4#64, draws := s.draws + 1 }

/-- RES0 bits that are hardwired have no effect: clearing the ones the model stores, before an
instruction, changes its outcome in no other bit (10_state.md R42, the spec's choice D14,
notes/assumptions/26.md). -/
def Obligations.HardwiredRes0BitsHaveNoEffect : Prop :=
  ∀ (i : Instr) (s : State), s.cfg.res0Mode = .hardwired →
    clearResOut (exec i s.clearRes) = clearResOut (exec i s)

/-- The label of a memory request, once writes are synchronised: the defaults from every level while MPAMEN
is 0, MPAM2_EL2's fields for EL2 while it is 1 (10_state.md R45, derived by the spec; the defaults are
D24; that "the MPAM configuration" of R28 adds nothing to EL2's label is the model's choice,
notes/assumptions/44.md, and so is that the fields label without FEAT_MPAM too, notes/assumptions/47.md).
A PARTID or PMG above its maximum labels as it is stored (notes/assumptions/28.md, unsafe), and MPAMEN acts
while EL2 is not enabled, with EL3 or without (C6 of 90_conflicts.md, notes/assumptions/42.md). -/
def Obligations.LabelsFollowTheEnable : Prop :=
  ∀ s : State, s.synced = true →
    (s.mpamen = false → ∀ (n : Nat) (e : EL) (k : Access),
      mpamLabel n e k s = ⟨s.cfg.defaultPartid, s.cfg.defaultPmg⟩) ∧
    (s.mpamen = true → ∀ n : Nat,
      mpamLabel n .el2 .data s = ⟨s.m2.partidD, s.m2.pmgD⟩ ∧
      mpamLabel n .el2 .instruction s = ⟨s.m2.partidI, s.m2.pmgI⟩)

/-- 10_state.md R33: either control traps accesses to MPAMIDR_EL1 from EL1. -/
def Obligations.EitherControlTrapsMpamidr : Prop :=
  ∀ s : State, trapIdr s = true ↔
    ((s.cfg.tidrPresent = true ∧ s.m2.tidr = true) ∨ s.inp.mpamhcrTrapMpamidr = true)

/-! ### Memory -/

/-- The write to NVMem[0x900] (20_memory.md R72): it completes, the eight bytes at NVAddr(0x900) are the
64 bits of X[t] unfiltered, every other byte reads as before, and MPAM1_EL1, MPAMEN and every other
register are unchanged. The byte order is the spec's choice D19 (R74), the address D9 (R73,
notes/assumptions/20.md); that the access takes no fault is notes/assumptions/21.md. The access is one
write event of `nvLog` (R73, notes/assumptions/18.md). -/
def Obligations.NvWriteStoresTheRegister : Prop :=
  ∀ (t : RegNum) (s : State), verdict (.msrMpam1El1 t) s = .access .nvMem →
    roomForNext s = true →
    ∃ s', exec (.msrMpam1El1 t) s = .next s' ∧
      (∀ n, n < 8 → Memory.read s'.mem ((nvAddr s).toNat + n) =
        some ((readX s t).extractLsb' (8 * (if s.inp.nvBigEndian then 7 - n else n)) 8)) ∧
      (∀ a, ¬ inNVMem s a → Memory.read s'.mem a = Memory.read s.mem a) ∧
      s'.x = s.x ∧ sameMpam s s' ∧ sameExc s s' ∧ sameGiven s s' ∧
      s'.enPending = s.enPending ∧ s'.m2Pending = s.m2Pending ∧
      s'.nvLog = .write (nvAddr s).toNat (readX s t) :: s.nvLog

/-- A read of NVMem[0x900] after a write of it, under the sequential reading, returns the value written,
in either byte order (20_memory.md R78, GK17; notes/assumptions/18.md). The address is the spec's choice
D9 (notes/assumptions/20.md). -/
def Obligations.NvReadReturnsTheLastWrite : Prop :=
  ∀ (t u : RegNum) (s s₁ s₂ : State), s.cfg.nvReadModel = .flat → u < 31 →
    verdict (.msrMpam1El1 t) s = .access .nvMem →
    exec (.msrMpam1El1 t) s = .next s₁ → exec (.mrsMpam1El1 u) s₁ = .next s₂ →
    readX s₂ u = readX s t

/-- NVAddr(0x900) is VNCR_BASE + 0x900, a multiple of 8, and its eight bytes lie in the address space
(20_memory.md R73, R75, the spec's choices D9, D20, notes/assumptions/20.md). -/
def Obligations.NvAddressIsAligned : Prop :=
  ∀ s : State, (nvAddr s).toNat = s.inp.vncrPage.toNat * 4096 + 0x900 ∧
    (nvAddr s).toNat % 8 = 0 ∧ (nvAddr s).toNat + 8 ≤ 2 ^ 64

/-- 20_memory.md R81: no accessor accesses memory but MRS and MSR of MPAM1_EL1 on the NVMem path, and of
those only the MSR changes it, in the eight bytes alone. -/
def Obligations.OnlyMpam1ReachesMemory : Prop :=
  ∀ (i : Instr) (s s' : State), exec i s = .next s' →
    (verdict i s ≠ .access .nvMem → s'.mem = s.mem ∧ s'.nvLog = s.nvLog) ∧
    (verdict i s = .access .nvMem → i.sysReg = .mpam1El1 ∧
      (i.isRead = true → s'.mem = s.mem) ∧
      (∀ a, ¬ inNVMem s a → Memory.read s'.mem a = Memory.read s.mem a))

/-! ### Reset -/

/-- What the spec gives for reset, for every configuration: MPAMEN is 0 (10_state.md R57, R58), and without
EL3 both trap controls are 1 (R59, R60). `State.reset` is one of these states. -/
def Obligations.ResetGivesTheStatedValues : Prop :=
  (∀ (c : Config) (inp : Inputs), (State.resetOf c inp).mpamen = false ∧
    (c.haveEL3 = false → (State.resetOf c inp).m2.trapMpam0El1 = true ∧
      (State.resetOf c inp).m2.trapMpam1El1 = true)) ∧
  State.reset.mpamen = false

/-- A Warm reset as the environment's event, from any admitted state whose program text does not overlap
NVMem, with a RESET_EL that the configuration and inputs admit (notes/assumptions/24.md, 25.md;
10_state.md R57; R58, the entry point and level are derived or parameters in the spec, D13): it happens,
MPAMEN is 0 in every view, without EL3 both trap controls are 1, the pc and the level are the parameters,
and all is synchronised. The parameters, the inputs and the program text stay, which is the model's choice
(notes/assumptions/32.md). -/
def Obligations.WarmResetEventGivesTheStatedValues : Prop :=
  ∀ (s : State) (rest : List EnvEvent), s.events = .warmReset :: rest → s.admitted = true →
    textOverlapsNVMem s = false →
    (s.cfg.resetEL = .el3 → s.cfg.haveEL3 = true) →
    (s.cfg.resetEL = .el2 → s.inp.el2Enabled = true) →
    ∃ s', step s = .next s' ∧ s'.mpamen = false ∧ (readMPAM2 .mpam2 s').getLsbD 63 = false ∧
      (readMPAM3 s').getLsbD 63 = false ∧ (readMPAM1 s').getLsbD 63 = false ∧
      (s.cfg.haveEL3 = false → s'.m2.trapMpam0El1 = true ∧ s'.m2.trapMpam1El1 = true) ∧
      s'.pc = s.cfg.resetPC ∧ s'.pstate.el = s.cfg.resetEL ∧ s'.synced = true ∧
      s'.events = rest ∧ s'.cfg = s.cfg ∧ s'.inp = s.inp ∧ s'.text = s.text

/-- Without EL3, right after reset, the first access of MPAM1_EL1 from EL1 traps to EL2 while EL2 is
enabled (70_reset_and_hazards.md R174, derived by the spec; vector Z5). -/
def Obligations.FirstEL1AccessAfterResetTraps : Prop :=
  ∀ (c : Config) (inp : Inputs) (i : Instr), c.featMPAM = true → c.haveEL3 = false →
    c.resetEL = .el1 → inp.el2Enabled = true → i.sysReg = .mpam1El1 →
    exec i (State.resetOf c inp) = raise i (.systemAccessTrap .el2) (State.resetOf c inp)

/-! ### Frames -/

/-- The frame of the MRS accessors, all three: no general register but X[t], no MPAM register, no byte of
memory, no parameter or input changes; and where the access is performed no exception register, no PSTATE
and no synchronisation does either. The accessor of MPAM3_EL3 is the spec's choice D5
(42_mpam3_el3_access.md R131, notes/assumptions/1.md); that the NVMem read takes no fault, so that no
exception register changes there, is its D9 (notes/assumptions/21.md, unsafe); what is changed beside X[t]
and the pc is 43.md. Where the access is not performed the entry is R150 and R152
(notes/assumptions/10.md), for an absent register by D18 and D26 (30.md). -/
def Obligations.MrsFrame : Prop :=
  ∀ (i : Instr) (s s' : State), i.isRead = true → exec i s = .next s' →
    sameXBut i.rt s s' ∧ sameMpam s s' ∧ sameMem s s' ∧ sameGiven s s' ∧
    (∀ r, verdict i s = .access r →
      sameExc s s' ∧ s'.enPending = s.enPending ∧ s'.m2Pending = s.m2Pending ∧
      (r ≠ .nvMem → s'.nvLog = s.nvLog))

/-- The frame of the MSR accessors, all three: no general register, no parameter or input changes; of the
MPAM registers only the one reached, and MPAMEN; no byte of memory but the eight bytes on the NVMem path;
and where the access is performed no exception register and no PSTATE. That a write which reaches
MPAM1_EL1 leaves MPAMEN alone is the spec's choice D16 (10_state.md R30, R48; notes/assumptions/29.md);
the accessor of MPAM3_EL3 is D5 (notes/assumptions/1.md). That the NVMem write takes no fault is its D9
(notes/assumptions/21.md, unsafe), the place of NVMem 20.md. Where the access is not performed the entry
is R150 and R152 (notes/assumptions/10.md), for an absent register by D18 and D26 (30.md). -/
def Obligations.MsrFrame : Prop :=
  ∀ (i : Instr) (s s' : State), i.isRead = false → exec i s = .next s' →
    s'.x = s.x ∧ sameGiven s s' ∧
    (verdict i s ≠ .access .mpam1 → s'.mpam1Rest = s.mpam1Rest) ∧
    (verdict i s ≠ .access .mpam2 → s'.m2 = s.m2) ∧
    (verdict i s ≠ .access .mpam3 → s'.traplower = s.traplower ∧ s'.mpam3Rest = s.mpam3Rest) ∧
    (verdict i s ≠ .access .mpam3 → verdict i s ≠ .access .mpam2 → s'.mpamen = s.mpamen) ∧
    (verdict i s ≠ .access .nvMem → sameMem s s') ∧
    (∀ a, ¬ inNVMem s a → Memory.read s'.mem a = Memory.read s.mem a) ∧
    (∀ r, verdict i s = .access r → sameExc s s')

/-- XZR: an MRS to it changes no general register, an MSR from it writes the value 0; and the number of
the register never decides the outcome: the verdict does not depend on it, and with every number the
instruction raises the same exception, completes, or is refused at the top of the address space
(30_encoding.md R96, GK11, the spec's choice D6). That an NVMem[0x900] access with any number completes,
which 41_mpam1_el1_access.md R121 does not promise, is the spec's choice D9 (20_memory.md R73;
notes/assumptions/21.md, DESIGN CHOICE, unsafe); the refusal at the top of the address space is its D22
(10_state.md R55, notes/assumptions/22.md); the accessors of MPAM3_EL3 are its D5 (R131, R132,
notes/assumptions/1.md); a number above 31, which no encoding holds, acts as XZR
(notes/assumptions/41.md). -/
def Obligations.XzrDiscardsAndWritesZero : Prop :=
  (∀ (i : Instr) (s s' : State), i.isRead = true → i.rt = 31 → exec i s = .next s' →
    s'.x = s.x) ∧
  (∀ (i : Instr) (s s' : State), i.isRead = false → i.rt = 31 → exec i s = .next s' →
    (verdict i s = .access .mpam1 → s'.mpam1Rest = 0#64) ∧
    (verdict i s = .access .mpam2 → s'.m2 = m2Written s.cfg 0#64 s.m2 ∧
      (s.cfg.haveEL3 = false → s'.mpamen = false)) ∧
    (verdict i s = .access .mpam3 →
      s'.mpamen = false ∧ s'.traplower = false ∧ s'.mpam3Rest = 0#64) ∧
    (verdict i s = .access .nvMem → s'.mem = nvStore s 0#64)) ∧
  (∀ (i : Instr) (t : RegNum) (s : State),
    verdict (withRt i t) s = verdict i s ∧
    (verdict i s = .undefined → exec (withRt i t) s = raise (withRt i t) .undefined s) ∧
    (∀ h, verdict i s = .trap h →
      exec (withRt i t) s = raise (withRt i t) (.systemAccessTrap h) s) ∧
    (∀ r, verdict i s = .access r →
      (roomForNext s = true → ∃ s', exec (withRt i t) s = .next s' ∧ s'.pc = s.pc + 4#64 ∧
        sameExc s s') ∧
      (roomForNext s = false → exec (withRt i t) s = .refused .pcWrap)))
end

