-- ==== Sys2Proof/Laws/Memory.lean ====
section
/-! SUPPORT. Memory: what a read gives after each operation, and that each keeps the canonical form. -/

namespace Sys2Proof.Machine

theorem Memory.read_of_risesFrom (m : List Host.Cell) (lo a : Nat)
    (h : Memory.risesFrom lo m = true) (ha : a < lo) : Memory.read m a = none := by
  induction m generalizing lo with
  | nil => rfl
  | cons c rest ih =>
    obtain ⟨k, v⟩ := c
    simp only [Memory.risesFrom, Bool.and_eq_true, decide_eq_true_eq] at h
    have hk : k ≠ a := by omega
    simp only [Memory.read, hk, if_false]
    exact ih (k + 1) h.2 (by omega)

theorem Memory.risesFrom_mono (m : List Host.Cell) (lo lo' : Nat) (hle : lo' ≤ lo)
    (h : Memory.risesFrom lo m = true) : Memory.risesFrom lo' m = true := by
  cases m with
  | nil => rfl
  | cons c rest =>
    obtain ⟨k, v⟩ := c
    simp only [Memory.risesFrom, Bool.and_eq_true, decide_eq_true_eq] at h ⊢
    exact ⟨⟨by omega, h.1.2⟩, h.2⟩

theorem Memory.read_write_same (m : List Host.Cell) (a : Nat) (b : Byte) :
    Memory.read (Memory.write m a b) a = some b := by
  induction m with
  | nil => simp [Memory.write, Memory.read]
  | cons c rest ih =>
    obtain ⟨k, v⟩ := c
    unfold Memory.write
    split
    · simp [Memory.read]
    · split
      · simp [Memory.read]
      · have hk : k ≠ a := by omega
        simp [Memory.read, hk, ih]

theorem Memory.read_write_other (m : List Host.Cell) (a a' : Nat) (b : Byte) (h : a' ≠ a) :
    Memory.read (Memory.write m a b) a' = Memory.read m a' := by
  induction m with
  | nil => simp [Memory.write, Memory.read, Ne.symm h]
  | cons c rest ih =>
    obtain ⟨k, v⟩ := c
    unfold Memory.write
    split
    · simp [Memory.read, Ne.symm h]
    · split
      · next hak => subst hak; simp [Memory.read, Ne.symm h]
      · by_cases hk : k = a' <;> simp [Memory.read, hk, ih]

theorem Memory.risesFrom_write (m : List Host.Cell) (lo a : Nat) (b : Byte) (hlo : lo ≤ a)
    (ha : a < 2 ^ 64) (h : Memory.risesFrom lo m = true) :
    Memory.risesFrom lo (Memory.write m a b) = true := by
  induction m generalizing lo with
  | nil =>
    simp only [Memory.write, Memory.risesFrom, Bool.and_true, Bool.and_eq_true, decide_eq_true_eq]
    exact ⟨hlo, ha⟩
  | cons c rest ih =>
    obtain ⟨k, v⟩ := c
    simp only [Memory.risesFrom, Bool.and_eq_true, decide_eq_true_eq] at h
    unfold Memory.write
    split
    · next hak =>
      simp only [Memory.risesFrom, Bool.and_eq_true, decide_eq_true_eq]
      exact ⟨⟨hlo, ha⟩, ⟨by omega, h.1.2⟩, h.2⟩
    · split
      · next hak =>
        subst hak
        simp only [Memory.risesFrom, Bool.and_eq_true, decide_eq_true_eq]
        exact ⟨⟨hlo, ha⟩, h.2⟩
      · simp only [Memory.risesFrom, Bool.and_eq_true, decide_eq_true_eq]
        exact ⟨h.1, ih (k + 1) (by omega) h.2⟩

theorem Memory.wf_write (m : List Host.Cell) (a : Nat) (b : Byte) (ha : a < 2 ^ 64)
    (h : Memory.wf m = true) : Memory.wf (Memory.write m a b) = true :=
  Memory.risesFrom_write m 0 a b (Nat.zero_le a) ha h

theorem Memory.wf_writeBytes (m : List Host.Cell) (a : Nat) (bs : List Byte)
    (ha : a + bs.length ≤ 2 ^ 64) (h : Memory.wf m = true) :
    Memory.wf (Memory.writeBytes m a bs) = true := by
  induction bs generalizing m a with
  | nil => exact h
  | cons b bs ih =>
    simp only [List.length_cons] at ha
    exact ih _ _ (by omega) (Memory.wf_write m a b (by omega) h)

/-- A byte outside the ones written reads as before. -/
theorem Memory.read_writeBytes_outside (m : List Host.Cell) (a a' : Nat) (bs : List Byte)
    (h : a' < a ∨ a + bs.length ≤ a') :
    Memory.read (Memory.writeBytes m a bs) a' = Memory.read m a' := by
  induction bs generalizing m a with
  | nil => rfl
  | cons b bs ih =>
    simp only [List.length_cons] at h
    unfold Memory.writeBytes
    rw [ih _ _ (by omega), Memory.read_write_other m a a' b (by omega)]

/-- The bytes written read back in their order. -/
theorem Memory.read_writeBytes_inside (m : List Host.Cell) (a n : Nat) (bs : List Byte)
    (h : n < bs.length) : Memory.read (Memory.writeBytes m a bs) (a + n) = bs[n]? := by
  induction bs generalizing m a n with
  | nil => simp at h
  | cons b bs ih =>
    unfold Memory.writeBytes
    cases n with
    | zero =>
      rw [Memory.read_writeBytes_outside _ _ _ _ (by omega)]
      simp [Memory.read_write_same]
    | succ n =>
      have hn : n < bs.length := by simpa using h
      have := ih (Memory.write m a b) (a + 1) n hn
      rw [Nat.add_assoc, Nat.add_comm 1 n] at this
      simpa using this

/-- The bytes written are what a read of them gives, whatever the fallbacks. -/
theorem Memory.readBytesOr_writeBytes (m : List Host.Cell) (a : Nat) (bs ds : List Byte)
    (h : ds.length = bs.length) :
    Memory.readBytesOr (Memory.writeBytes m a bs) a ds = bs := by
  induction bs generalizing m a ds with
  | nil => cases ds with
    | nil => rfl
    | cons d ds => simp at h
  | cons b bs ih =>
    cases ds with
    | nil => simp at h
    | cons d ds =>
      unfold Memory.writeBytes Memory.readBytesOr
      rw [Memory.read_writeBytes_outside _ _ _ _ (by omega), Memory.read_write_same]
      rw [ih _ _ _ (by simpa using h)]
      rfl

theorem littleBytes_length (v : Word) : (littleBytes v).length = 8 := rfl

theorem dataBytes_length (be : Bool) (v : Word) : (dataBytes be v).length = 8 := by
  unfold dataBytes; split <;> simp [littleBytes_length]

theorem ofLittleBytes_littleBytes (v : Word) : ofLittleBytes (littleBytes v) = v := by
  apply BitVec.eq_of_getLsbD_eq
  intro i hi
  simp only [littleBytes, ofLittleBytes, BitVec.getLsbD_or, BitVec.getLsbD_shiftLeft,
    BitVec.getLsbD_setWidth, BitVec.getLsbD_extractLsb']
  interval_cases i <;> simp

theorem ofDataBytes_dataBytes (be : Bool) (v : Word) :
    ofDataBytes be (dataBytes be v) = v := by
  unfold ofDataBytes dataBytes
  cases be <;> simp [ofLittleBytes_littleBytes]

theorem nvAddr_toNat (s : State) : (nvAddr s).toNat = s.inp.vncrPage.toNat * 4096 + 0x900 := by
  have h := s.inp.vncrPage.isLt
  unfold nvAddr
  rw [BitVec.toNat_add, BitVec.toNat_shiftLeft, BitVec.toNat_setWidth, Nat.shiftLeft_eq]
  norm_num
  omega

/-- The eight bytes at NVAddr(0x900) lie within the address space. -/
theorem nvAddr_room (s : State) : (nvAddr s).toNat + 8 ≤ 2 ^ 64 := by
  have h := s.inp.vncrPage.isLt
  rw [nvAddr_toNat]
  omega

/-- Whether the text overlaps NVMem is a matter of the text and the inputs alone. -/
theorem textOverlapsNVMem_congr {s u : State} (ht : u.text = s.text) (hi : u.inp = s.inp) :
    textOverlapsNVMem u = textOverlapsNVMem s := by
  unfold textOverlapsNVMem nvAddr
  rw [ht, hi]

theorem Memory.wf_nvStore (s : State) (v : Word) (h : Memory.wf s.mem = true) :
    Memory.wf (nvStore s v) = true :=
  Memory.wf_writeBytes _ _ _ (by rw [dataBytes_length]; exact nvAddr_room s) h

theorem Memory.wf_reset :
    Memory.wf State.reset.mem = true ∧ Memory.wf State.reset.text = true := ⟨rfl, rfl⟩

/-- `withFetchWord` keeps the canonical form where the word fits below the top. -/
theorem Memory.wf_storeWord32 (m : List Host.Cell) (a : Nat) (w : BitVec 32)
    (ha : a + 4 ≤ 2 ^ 64) (h : Memory.wf m = true) : Memory.wf (storeWord32 m a w) = true :=
  Memory.wf_writeBytes _ _ _ (by simpa [bytesOfWord] using ha) h

end Sys2Proof.Machine
end

