-- ==== Sys2Proof/Laws/State.lean ====
section
/-! SUPPORT. For each update of the state, what each field is afterwards: every other proof reads a
record update through these and unfolds none. -/

namespace Sys2Proof.Machine

/-! ### The draw counter -/

@[simp] theorem tick_cfg (s : State) :
    (tick s).cfg = s.cfg := rfl
@[simp] theorem tick_inp (s : State) :
    (tick s).inp = s.inp := rfl
@[simp] theorem tick_pc (s : State) :
    (tick s).pc = s.pc := rfl
@[simp] theorem tick_x (s : State) :
    (tick s).x = s.x := rfl
@[simp] theorem tick_pstate (s : State) :
    (tick s).pstate = s.pstate := rfl
@[simp] theorem tick_mpamen (s : State) :
    (tick s).mpamen = s.mpamen := rfl
@[simp] theorem tick_traplower (s : State) :
    (tick s).traplower = s.traplower := rfl
@[simp] theorem tick_mpam3Rest (s : State) :
    (tick s).mpam3Rest = s.mpam3Rest := rfl
@[simp] theorem tick_m2 (s : State) :
    (tick s).m2 = s.m2 := rfl
@[simp] theorem tick_mpam1Rest (s : State) :
    (tick s).mpam1Rest = s.mpam1Rest := rfl
@[simp] theorem tick_text (s : State) :
    (tick s).text = s.text := rfl
@[simp] theorem tick_mem (s : State) :
    (tick s).mem = s.mem := rfl
@[simp] theorem tick_exc1 (s : State) :
    (tick s).exc1 = s.exc1 := rfl
@[simp] theorem tick_exc2 (s : State) :
    (tick s).exc2 = s.exc2 := rfl
@[simp] theorem tick_exc3 (s : State) :
    (tick s).exc3 = s.exc3 := rfl
@[simp] theorem tick_debugError (s : State) :
    (tick s).debugError = s.debugError := rfl
@[simp] theorem tick_enPending (s : State) :
    (tick s).enPending = s.enPending := rfl
@[simp] theorem tick_m2Pending (s : State) :
    (tick s).m2Pending = s.m2Pending := rfl
@[simp] theorem tick_nvLog (s : State) :
    (tick s).nvLog = s.nvLog := rfl
@[simp] theorem tick_events (s : State) :
    (tick s).events = s.events := rfl
@[simp] theorem tick_draws (s : State) :
    (tick s).draws = s.draws + 1 := rfl

/-! ### A context synchronisation event -/

@[simp] theorem contextSync_cfg (s : State) :
    (contextSync s).cfg = s.cfg := rfl
@[simp] theorem contextSync_inp (s : State) :
    (contextSync s).inp = s.inp := rfl
@[simp] theorem contextSync_pc (s : State) :
    (contextSync s).pc = s.pc := rfl
@[simp] theorem contextSync_x (s : State) :
    (contextSync s).x = s.x := rfl
@[simp] theorem contextSync_pstate (s : State) :
    (contextSync s).pstate = s.pstate := rfl
@[simp] theorem contextSync_mpamen (s : State) :
    (contextSync s).mpamen = s.mpamen := rfl
@[simp] theorem contextSync_traplower (s : State) :
    (contextSync s).traplower = s.traplower := rfl
@[simp] theorem contextSync_mpam3Rest (s : State) :
    (contextSync s).mpam3Rest = s.mpam3Rest := rfl
@[simp] theorem contextSync_m2 (s : State) :
    (contextSync s).m2 = s.m2 := rfl
@[simp] theorem contextSync_mpam1Rest (s : State) :
    (contextSync s).mpam1Rest = s.mpam1Rest := rfl
@[simp] theorem contextSync_text (s : State) :
    (contextSync s).text = s.text := rfl
@[simp] theorem contextSync_mem (s : State) :
    (contextSync s).mem = s.mem := rfl
@[simp] theorem contextSync_exc1 (s : State) :
    (contextSync s).exc1 = s.exc1 := rfl
@[simp] theorem contextSync_exc2 (s : State) :
    (contextSync s).exc2 = s.exc2 := rfl
@[simp] theorem contextSync_exc3 (s : State) :
    (contextSync s).exc3 = s.exc3 := rfl
@[simp] theorem contextSync_debugError (s : State) :
    (contextSync s).debugError = s.debugError := rfl
@[simp] theorem contextSync_enPending (s : State) :
    (contextSync s).enPending = [] := rfl
@[simp] theorem contextSync_m2Pending (s : State) :
    (contextSync s).m2Pending = [] := rfl
@[simp] theorem contextSync_nvLog (s : State) :
    (contextSync s).nvLog = s.nvLog := rfl
@[simp] theorem contextSync_events (s : State) :
    (contextSync s).events = s.events := rfl
@[simp] theorem contextSync_draws (s : State) :
    (contextSync s).draws = s.draws := rfl

/-! ### A general register -/

@[simp] theorem writeX_cfg (s : State) (t : RegNum) (v : Word) :
    (writeX s t v).cfg = s.cfg := by
  unfold writeX; split <;> rfl
@[simp] theorem writeX_inp (s : State) (t : RegNum) (v : Word) :
    (writeX s t v).inp = s.inp := by
  unfold writeX; split <;> rfl
@[simp] theorem writeX_pc (s : State) (t : RegNum) (v : Word) :
    (writeX s t v).pc = s.pc := by
  unfold writeX; split <;> rfl
@[simp] theorem writeX_pstate (s : State) (t : RegNum) (v : Word) :
    (writeX s t v).pstate = s.pstate := by
  unfold writeX; split <;> rfl
@[simp] theorem writeX_mpamen (s : State) (t : RegNum) (v : Word) :
    (writeX s t v).mpamen = s.mpamen := by
  unfold writeX; split <;> rfl
@[simp] theorem writeX_traplower (s : State) (t : RegNum) (v : Word) :
    (writeX s t v).traplower = s.traplower := by
  unfold writeX; split <;> rfl
@[simp] theorem writeX_mpam3Rest (s : State) (t : RegNum) (v : Word) :
    (writeX s t v).mpam3Rest = s.mpam3Rest := by
  unfold writeX; split <;> rfl
@[simp] theorem writeX_m2 (s : State) (t : RegNum) (v : Word) :
    (writeX s t v).m2 = s.m2 := by
  unfold writeX; split <;> rfl
@[simp] theorem writeX_mpam1Rest (s : State) (t : RegNum) (v : Word) :
    (writeX s t v).mpam1Rest = s.mpam1Rest := by
  unfold writeX; split <;> rfl
@[simp] theorem writeX_text (s : State) (t : RegNum) (v : Word) :
    (writeX s t v).text = s.text := by
  unfold writeX; split <;> rfl
@[simp] theorem writeX_mem (s : State) (t : RegNum) (v : Word) :
    (writeX s t v).mem = s.mem := by
  unfold writeX; split <;> rfl
@[simp] theorem writeX_exc1 (s : State) (t : RegNum) (v : Word) :
    (writeX s t v).exc1 = s.exc1 := by
  unfold writeX; split <;> rfl
@[simp] theorem writeX_exc2 (s : State) (t : RegNum) (v : Word) :
    (writeX s t v).exc2 = s.exc2 := by
  unfold writeX; split <;> rfl
@[simp] theorem writeX_exc3 (s : State) (t : RegNum) (v : Word) :
    (writeX s t v).exc3 = s.exc3 := by
  unfold writeX; split <;> rfl
@[simp] theorem writeX_debugError (s : State) (t : RegNum) (v : Word) :
    (writeX s t v).debugError = s.debugError := by
  unfold writeX; split <;> rfl
@[simp] theorem writeX_enPending (s : State) (t : RegNum) (v : Word) :
    (writeX s t v).enPending = s.enPending := by
  unfold writeX; split <;> rfl
@[simp] theorem writeX_m2Pending (s : State) (t : RegNum) (v : Word) :
    (writeX s t v).m2Pending = s.m2Pending := by
  unfold writeX; split <;> rfl
@[simp] theorem writeX_nvLog (s : State) (t : RegNum) (v : Word) :
    (writeX s t v).nvLog = s.nvLog := by
  unfold writeX; split <;> rfl
@[simp] theorem writeX_events (s : State) (t : RegNum) (v : Word) :
    (writeX s t v).events = s.events := by
  unfold writeX; split <;> rfl
@[simp] theorem writeX_draws (s : State) (t : RegNum) (v : Word) :
    (writeX s t v).draws = s.draws := by
  unfold writeX; split <;> rfl

/-! ### The exception registers of a level -/

@[simp] theorem setBank_cfg (s : State) (h : HandlerEL) (b : ExcBank) :
    (setBank s h b).cfg = s.cfg := by cases h <;> rfl
@[simp] theorem setBank_inp (s : State) (h : HandlerEL) (b : ExcBank) :
    (setBank s h b).inp = s.inp := by cases h <;> rfl
@[simp] theorem setBank_pc (s : State) (h : HandlerEL) (b : ExcBank) :
    (setBank s h b).pc = s.pc := by cases h <;> rfl
@[simp] theorem setBank_x (s : State) (h : HandlerEL) (b : ExcBank) :
    (setBank s h b).x = s.x := by cases h <;> rfl
@[simp] theorem setBank_pstate (s : State) (h : HandlerEL) (b : ExcBank) :
    (setBank s h b).pstate = s.pstate := by cases h <;> rfl
@[simp] theorem setBank_mpamen (s : State) (h : HandlerEL) (b : ExcBank) :
    (setBank s h b).mpamen = s.mpamen := by cases h <;> rfl
@[simp] theorem setBank_traplower (s : State) (h : HandlerEL) (b : ExcBank) :
    (setBank s h b).traplower = s.traplower := by cases h <;> rfl
@[simp] theorem setBank_mpam3Rest (s : State) (h : HandlerEL) (b : ExcBank) :
    (setBank s h b).mpam3Rest = s.mpam3Rest := by cases h <;> rfl
@[simp] theorem setBank_m2 (s : State) (h : HandlerEL) (b : ExcBank) :
    (setBank s h b).m2 = s.m2 := by cases h <;> rfl
@[simp] theorem setBank_mpam1Rest (s : State) (h : HandlerEL) (b : ExcBank) :
    (setBank s h b).mpam1Rest = s.mpam1Rest := by cases h <;> rfl
@[simp] theorem setBank_text (s : State) (h : HandlerEL) (b : ExcBank) :
    (setBank s h b).text = s.text := by cases h <;> rfl
@[simp] theorem setBank_mem (s : State) (h : HandlerEL) (b : ExcBank) :
    (setBank s h b).mem = s.mem := by cases h <;> rfl
@[simp] theorem setBank_exc1 (s : State) (h : HandlerEL) (b : ExcBank) :
    (setBank s h b).exc1 = if h = .el1 then b else s.exc1 := by cases h <;> rfl
@[simp] theorem setBank_exc2 (s : State) (h : HandlerEL) (b : ExcBank) :
    (setBank s h b).exc2 = if h = .el2 then b else s.exc2 := by cases h <;> rfl
@[simp] theorem setBank_exc3 (s : State) (h : HandlerEL) (b : ExcBank) :
    (setBank s h b).exc3 = if h = .el3 then b else s.exc3 := by cases h <;> rfl
@[simp] theorem setBank_debugError (s : State) (h : HandlerEL) (b : ExcBank) :
    (setBank s h b).debugError = s.debugError := by cases h <;> rfl
@[simp] theorem setBank_enPending (s : State) (h : HandlerEL) (b : ExcBank) :
    (setBank s h b).enPending = s.enPending := by cases h <;> rfl
@[simp] theorem setBank_m2Pending (s : State) (h : HandlerEL) (b : ExcBank) :
    (setBank s h b).m2Pending = s.m2Pending := by cases h <;> rfl
@[simp] theorem setBank_nvLog (s : State) (h : HandlerEL) (b : ExcBank) :
    (setBank s h b).nvLog = s.nvLog := by cases h <;> rfl
@[simp] theorem setBank_events (s : State) (h : HandlerEL) (b : ExcBank) :
    (setBank s h b).events = s.events := by cases h <;> rfl
@[simp] theorem setBank_draws (s : State) (h : HandlerEL) (b : ExcBank) :
    (setBank s h b).draws = s.draws := by cases h <;> rfl

/-! ### MPAMEN -/

@[simp] theorem writeMpamen_cfg (v : View) (b : Bool) (s : State) :
    (writeMpamen v b s).cfg = s.cfg := rfl
@[simp] theorem writeMpamen_inp (v : View) (b : Bool) (s : State) :
    (writeMpamen v b s).inp = s.inp := rfl
@[simp] theorem writeMpamen_pc (v : View) (b : Bool) (s : State) :
    (writeMpamen v b s).pc = s.pc := rfl
@[simp] theorem writeMpamen_x (v : View) (b : Bool) (s : State) :
    (writeMpamen v b s).x = s.x := rfl
@[simp] theorem writeMpamen_pstate (v : View) (b : Bool) (s : State) :
    (writeMpamen v b s).pstate = s.pstate := rfl
@[simp] theorem writeMpamen_mpamen (v : View) (b : Bool) (s : State) :
    (writeMpamen v b s).mpamen = b := rfl
@[simp] theorem writeMpamen_traplower (v : View) (b : Bool) (s : State) :
    (writeMpamen v b s).traplower = s.traplower := rfl
@[simp] theorem writeMpamen_mpam3Rest (v : View) (b : Bool) (s : State) :
    (writeMpamen v b s).mpam3Rest = s.mpam3Rest := rfl
@[simp] theorem writeMpamen_m2 (v : View) (b : Bool) (s : State) :
    (writeMpamen v b s).m2 = s.m2 := rfl
@[simp] theorem writeMpamen_mpam1Rest (v : View) (b : Bool) (s : State) :
    (writeMpamen v b s).mpam1Rest = s.mpam1Rest := rfl
@[simp] theorem writeMpamen_text (v : View) (b : Bool) (s : State) :
    (writeMpamen v b s).text = s.text := rfl
@[simp] theorem writeMpamen_mem (v : View) (b : Bool) (s : State) :
    (writeMpamen v b s).mem = s.mem := rfl
@[simp] theorem writeMpamen_exc1 (v : View) (b : Bool) (s : State) :
    (writeMpamen v b s).exc1 = s.exc1 := rfl
@[simp] theorem writeMpamen_exc2 (v : View) (b : Bool) (s : State) :
    (writeMpamen v b s).exc2 = s.exc2 := rfl
@[simp] theorem writeMpamen_exc3 (v : View) (b : Bool) (s : State) :
    (writeMpamen v b s).exc3 = s.exc3 := rfl
@[simp] theorem writeMpamen_debugError (v : View) (b : Bool) (s : State) :
    (writeMpamen v b s).debugError = s.debugError := rfl
@[simp] theorem writeMpamen_enPending (v : View) (b : Bool) (s : State) :
    (writeMpamen v b s).enPending = ⟨v, s.mpamen⟩ :: s.enPending := rfl
@[simp] theorem writeMpamen_m2Pending (v : View) (b : Bool) (s : State) :
    (writeMpamen v b s).m2Pending = s.m2Pending := rfl
@[simp] theorem writeMpamen_nvLog (v : View) (b : Bool) (s : State) :
    (writeMpamen v b s).nvLog = s.nvLog := rfl
@[simp] theorem writeMpamen_events (v : View) (b : Bool) (s : State) :
    (writeMpamen v b s).events = s.events := rfl
@[simp] theorem writeMpamen_draws (v : View) (b : Bool) (s : State) :
    (writeMpamen v b s).draws = s.draws := rfl

/-! ### MPAM2_EL2 -/

@[simp] theorem writeMPAM2_cfg (v : View) (w : Word) (s : State) :
    (writeMPAM2 v w s).cfg = s.cfg := by
  unfold writeMPAM2; split <;> rfl
@[simp] theorem writeMPAM2_inp (v : View) (w : Word) (s : State) :
    (writeMPAM2 v w s).inp = s.inp := by
  unfold writeMPAM2; split <;> rfl
@[simp] theorem writeMPAM2_pc (v : View) (w : Word) (s : State) :
    (writeMPAM2 v w s).pc = s.pc := by
  unfold writeMPAM2; split <;> rfl
@[simp] theorem writeMPAM2_x (v : View) (w : Word) (s : State) :
    (writeMPAM2 v w s).x = s.x := by
  unfold writeMPAM2; split <;> rfl
@[simp] theorem writeMPAM2_pstate (v : View) (w : Word) (s : State) :
    (writeMPAM2 v w s).pstate = s.pstate := by
  unfold writeMPAM2; split <;> rfl
@[simp] theorem writeMPAM2_mpamen (v : View) (w : Word) (s : State) :
    (writeMPAM2 v w s).mpamen = if s.cfg.haveEL3 then s.mpamen else w.getLsbD 63 := by
  unfold writeMPAM2; split <;> rfl
@[simp] theorem writeMPAM2_traplower (v : View) (w : Word) (s : State) :
    (writeMPAM2 v w s).traplower = s.traplower := by
  unfold writeMPAM2; split <;> rfl
@[simp] theorem writeMPAM2_mpam3Rest (v : View) (w : Word) (s : State) :
    (writeMPAM2 v w s).mpam3Rest = s.mpam3Rest := by
  unfold writeMPAM2; split <;> rfl
@[simp] theorem writeMPAM2_m2 (v : View) (w : Word) (s : State) :
    (writeMPAM2 v w s).m2 = m2Written s.cfg w s.m2 := rfl
@[simp] theorem writeMPAM2_mpam1Rest (v : View) (w : Word) (s : State) :
    (writeMPAM2 v w s).mpam1Rest = s.mpam1Rest := by
  unfold writeMPAM2; split <;> rfl
@[simp] theorem writeMPAM2_text (v : View) (w : Word) (s : State) :
    (writeMPAM2 v w s).text = s.text := by
  unfold writeMPAM2; split <;> rfl
@[simp] theorem writeMPAM2_mem (v : View) (w : Word) (s : State) :
    (writeMPAM2 v w s).mem = s.mem := by
  unfold writeMPAM2; split <;> rfl
@[simp] theorem writeMPAM2_exc1 (v : View) (w : Word) (s : State) :
    (writeMPAM2 v w s).exc1 = s.exc1 := by
  unfold writeMPAM2; split <;> rfl
@[simp] theorem writeMPAM2_exc2 (v : View) (w : Word) (s : State) :
    (writeMPAM2 v w s).exc2 = s.exc2 := by
  unfold writeMPAM2; split <;> rfl
@[simp] theorem writeMPAM2_exc3 (v : View) (w : Word) (s : State) :
    (writeMPAM2 v w s).exc3 = s.exc3 := by
  unfold writeMPAM2; split <;> rfl
@[simp] theorem writeMPAM2_debugError (v : View) (w : Word) (s : State) :
    (writeMPAM2 v w s).debugError = s.debugError := by
  unfold writeMPAM2; split <;> rfl
@[simp] theorem writeMPAM2_enPending (v : View) (w : Word) (s : State) :
    (writeMPAM2 v w s).enPending = if s.cfg.haveEL3 then s.enPending else ⟨v, s.mpamen⟩ :: s.enPending := by
  unfold writeMPAM2; split <;> rfl
@[simp] theorem writeMPAM2_m2Pending (v : View) (w : Word) (s : State) :
    (writeMPAM2 v w s).m2Pending = ⟨v, s.m2⟩ :: s.m2Pending := rfl
@[simp] theorem writeMPAM2_nvLog (v : View) (w : Word) (s : State) :
    (writeMPAM2 v w s).nvLog = s.nvLog := by
  unfold writeMPAM2; split <;> rfl
@[simp] theorem writeMPAM2_events (v : View) (w : Word) (s : State) :
    (writeMPAM2 v w s).events = s.events := by
  unfold writeMPAM2; split <;> rfl
@[simp] theorem writeMPAM2_draws (v : View) (w : Word) (s : State) :
    (writeMPAM2 v w s).draws = s.draws := by
  unfold writeMPAM2; split <;> rfl

/-! ### MPAM3_EL3 -/

@[simp] theorem writeMPAM3_cfg (w : Word) (s : State) :
    (writeMPAM3 w s).cfg = s.cfg := rfl
@[simp] theorem writeMPAM3_inp (w : Word) (s : State) :
    (writeMPAM3 w s).inp = s.inp := rfl
@[simp] theorem writeMPAM3_pc (w : Word) (s : State) :
    (writeMPAM3 w s).pc = s.pc := rfl
@[simp] theorem writeMPAM3_x (w : Word) (s : State) :
    (writeMPAM3 w s).x = s.x := rfl
@[simp] theorem writeMPAM3_pstate (w : Word) (s : State) :
    (writeMPAM3 w s).pstate = s.pstate := rfl
@[simp] theorem writeMPAM3_mpamen (w : Word) (s : State) :
    (writeMPAM3 w s).mpamen = w.getLsbD 63 := rfl
@[simp] theorem writeMPAM3_traplower (w : Word) (s : State) :
    (writeMPAM3 w s).traplower = w.getLsbD s.cfg.traplowerBit.val := rfl
@[simp] theorem writeMPAM3_mpam3Rest (w : Word) (s : State) :
    (writeMPAM3 w s).mpam3Rest = w := rfl
@[simp] theorem writeMPAM3_m2 (w : Word) (s : State) :
    (writeMPAM3 w s).m2 = s.m2 := rfl
@[simp] theorem writeMPAM3_mpam1Rest (w : Word) (s : State) :
    (writeMPAM3 w s).mpam1Rest = s.mpam1Rest := rfl
@[simp] theorem writeMPAM3_text (w : Word) (s : State) :
    (writeMPAM3 w s).text = s.text := rfl
@[simp] theorem writeMPAM3_mem (w : Word) (s : State) :
    (writeMPAM3 w s).mem = s.mem := rfl
@[simp] theorem writeMPAM3_exc1 (w : Word) (s : State) :
    (writeMPAM3 w s).exc1 = s.exc1 := rfl
@[simp] theorem writeMPAM3_exc2 (w : Word) (s : State) :
    (writeMPAM3 w s).exc2 = s.exc2 := rfl
@[simp] theorem writeMPAM3_exc3 (w : Word) (s : State) :
    (writeMPAM3 w s).exc3 = s.exc3 := rfl
@[simp] theorem writeMPAM3_debugError (w : Word) (s : State) :
    (writeMPAM3 w s).debugError = s.debugError := rfl
@[simp] theorem writeMPAM3_enPending (w : Word) (s : State) :
    (writeMPAM3 w s).enPending = ⟨.mpam3, s.mpamen⟩ :: s.enPending := rfl
@[simp] theorem writeMPAM3_m2Pending (w : Word) (s : State) :
    (writeMPAM3 w s).m2Pending = s.m2Pending := rfl
@[simp] theorem writeMPAM3_nvLog (w : Word) (s : State) :
    (writeMPAM3 w s).nvLog = s.nvLog := rfl
@[simp] theorem writeMPAM3_events (w : Word) (s : State) :
    (writeMPAM3 w s).events = s.events := rfl
@[simp] theorem writeMPAM3_draws (w : Word) (s : State) :
    (writeMPAM3 w s).draws = s.draws := rfl

/-! ### MPAM1_EL1 -/

@[simp] theorem writeMPAM1_cfg (w : Word) (s : State) :
    (writeMPAM1 w s).cfg = s.cfg := rfl
@[simp] theorem writeMPAM1_inp (w : Word) (s : State) :
    (writeMPAM1 w s).inp = s.inp := rfl
@[simp] theorem writeMPAM1_pc (w : Word) (s : State) :
    (writeMPAM1 w s).pc = s.pc := rfl
@[simp] theorem writeMPAM1_x (w : Word) (s : State) :
    (writeMPAM1 w s).x = s.x := rfl
@[simp] theorem writeMPAM1_pstate (w : Word) (s : State) :
    (writeMPAM1 w s).pstate = s.pstate := rfl
@[simp] theorem writeMPAM1_mpamen (w : Word) (s : State) :
    (writeMPAM1 w s).mpamen = s.mpamen := rfl
@[simp] theorem writeMPAM1_traplower (w : Word) (s : State) :
    (writeMPAM1 w s).traplower = s.traplower := rfl
@[simp] theorem writeMPAM1_mpam3Rest (w : Word) (s : State) :
    (writeMPAM1 w s).mpam3Rest = s.mpam3Rest := rfl
@[simp] theorem writeMPAM1_m2 (w : Word) (s : State) :
    (writeMPAM1 w s).m2 = s.m2 := rfl
@[simp] theorem writeMPAM1_mpam1Rest (w : Word) (s : State) :
    (writeMPAM1 w s).mpam1Rest = w := rfl
@[simp] theorem writeMPAM1_text (w : Word) (s : State) :
    (writeMPAM1 w s).text = s.text := rfl
@[simp] theorem writeMPAM1_mem (w : Word) (s : State) :
    (writeMPAM1 w s).mem = s.mem := rfl
@[simp] theorem writeMPAM1_exc1 (w : Word) (s : State) :
    (writeMPAM1 w s).exc1 = s.exc1 := rfl
@[simp] theorem writeMPAM1_exc2 (w : Word) (s : State) :
    (writeMPAM1 w s).exc2 = s.exc2 := rfl
@[simp] theorem writeMPAM1_exc3 (w : Word) (s : State) :
    (writeMPAM1 w s).exc3 = s.exc3 := rfl
@[simp] theorem writeMPAM1_debugError (w : Word) (s : State) :
    (writeMPAM1 w s).debugError = s.debugError := rfl
@[simp] theorem writeMPAM1_enPending (w : Word) (s : State) :
    (writeMPAM1 w s).enPending = s.enPending := rfl
@[simp] theorem writeMPAM1_m2Pending (w : Word) (s : State) :
    (writeMPAM1 w s).m2Pending = s.m2Pending := rfl
@[simp] theorem writeMPAM1_nvLog (w : Word) (s : State) :
    (writeMPAM1 w s).nvLog = s.nvLog := rfl
@[simp] theorem writeMPAM1_events (w : Word) (s : State) :
    (writeMPAM1 w s).events = s.events := rfl
@[simp] theorem writeMPAM1_draws (w : Word) (s : State) :
    (writeMPAM1 w s).draws = s.draws := rfl

/-! ### Exception entry -/

@[simp] theorem enterException_cfg (h : HandlerEL) (esr : BitVec 32) (s : State) :
    (enterException h esr s).cfg = s.cfg := by cases h <;> rfl
@[simp] theorem enterException_inp (h : HandlerEL) (esr : BitVec 32) (s : State) :
    (enterException h esr s).inp = s.inp := by cases h <;> rfl
@[simp] theorem enterException_pc (h : HandlerEL) (esr : BitVec 32) (s : State) :
    (enterException h esr s).pc = vbar s.cfg h + vectorOffset s h := rfl
@[simp] theorem enterException_x (h : HandlerEL) (esr : BitVec 32) (s : State) :
    (enterException h esr s).x = s.x := by cases h <;> rfl
@[simp] theorem enterException_pstate (h : HandlerEL) (esr : BitVec 32) (s : State) :
    (enterException h esr s).pstate = ⟨h.toEL, true, true, true, true, true⟩ := rfl
@[simp] theorem enterException_mpamen (h : HandlerEL) (esr : BitVec 32) (s : State) :
    (enterException h esr s).mpamen = s.mpamen := by cases h <;> rfl
@[simp] theorem enterException_traplower (h : HandlerEL) (esr : BitVec 32) (s : State) :
    (enterException h esr s).traplower = s.traplower := by cases h <;> rfl
@[simp] theorem enterException_mpam3Rest (h : HandlerEL) (esr : BitVec 32) (s : State) :
    (enterException h esr s).mpam3Rest = s.mpam3Rest := by cases h <;> rfl
@[simp] theorem enterException_m2 (h : HandlerEL) (esr : BitVec 32) (s : State) :
    (enterException h esr s).m2 = s.m2 := by cases h <;> rfl
@[simp] theorem enterException_mpam1Rest (h : HandlerEL) (esr : BitVec 32) (s : State) :
    (enterException h esr s).mpam1Rest = s.mpam1Rest := by cases h <;> rfl
@[simp] theorem enterException_text (h : HandlerEL) (esr : BitVec 32) (s : State) :
    (enterException h esr s).text = s.text := by cases h <;> rfl
@[simp] theorem enterException_mem (h : HandlerEL) (esr : BitVec 32) (s : State) :
    (enterException h esr s).mem = s.mem := by cases h <;> rfl
@[simp] theorem enterException_exc1 (h : HandlerEL) (esr : BitVec 32) (s : State) :
    (enterException h esr s).exc1 = if h = .el1 then ⟨esr, s.pc, s.pstate⟩ else s.exc1 := by cases h <;> rfl
@[simp] theorem enterException_exc2 (h : HandlerEL) (esr : BitVec 32) (s : State) :
    (enterException h esr s).exc2 = if h = .el2 then ⟨esr, s.pc, s.pstate⟩ else s.exc2 := by cases h <;> rfl
@[simp] theorem enterException_exc3 (h : HandlerEL) (esr : BitVec 32) (s : State) :
    (enterException h esr s).exc3 = if h = .el3 then ⟨esr, s.pc, s.pstate⟩ else s.exc3 := by cases h <;> rfl
@[simp] theorem enterException_debugError (h : HandlerEL) (esr : BitVec 32) (s : State) :
    (enterException h esr s).debugError = s.debugError := by cases h <;> rfl
@[simp] theorem enterException_enPending (h : HandlerEL) (esr : BitVec 32) (s : State) :
    (enterException h esr s).enPending = [] := rfl
@[simp] theorem enterException_m2Pending (h : HandlerEL) (esr : BitVec 32) (s : State) :
    (enterException h esr s).m2Pending = [] := rfl
@[simp] theorem enterException_nvLog (h : HandlerEL) (esr : BitVec 32) (s : State) :
    (enterException h esr s).nvLog = s.nvLog := by cases h <;> rfl
@[simp] theorem enterException_events (h : HandlerEL) (esr : BitVec 32) (s : State) :
    (enterException h esr s).events = s.events := by cases h <;> rfl
@[simp] theorem enterException_draws (h : HandlerEL) (esr : BitVec 32) (s : State) :
    (enterException h esr s).draws = s.draws := by cases h <;> rfl

/-! ### Exception return -/

@[simp] theorem returned_cfg (h : HandlerEL) (a : Word) (s : State) :
    (returned h a s).cfg = s.cfg := by cases h <;> rfl
@[simp] theorem returned_inp (h : HandlerEL) (a : Word) (s : State) :
    (returned h a s).inp = s.inp := by cases h <;> rfl
@[simp] theorem returned_pc (h : HandlerEL) (a : Word) (s : State) :
    (returned h a s).pc = a := rfl
@[simp] theorem returned_x (h : HandlerEL) (a : Word) (s : State) :
    (returned h a s).x = s.x := by cases h <;> rfl
@[simp] theorem returned_pstate (h : HandlerEL) (a : Word) (s : State) :
    (returned h a s).pstate = (bank s h).spsr := rfl
@[simp] theorem returned_mpamen (h : HandlerEL) (a : Word) (s : State) :
    (returned h a s).mpamen = s.mpamen := by cases h <;> rfl
@[simp] theorem returned_traplower (h : HandlerEL) (a : Word) (s : State) :
    (returned h a s).traplower = s.traplower := by cases h <;> rfl
@[simp] theorem returned_mpam3Rest (h : HandlerEL) (a : Word) (s : State) :
    (returned h a s).mpam3Rest = s.mpam3Rest := by cases h <;> rfl
@[simp] theorem returned_m2 (h : HandlerEL) (a : Word) (s : State) :
    (returned h a s).m2 = s.m2 := by cases h <;> rfl
@[simp] theorem returned_mpam1Rest (h : HandlerEL) (a : Word) (s : State) :
    (returned h a s).mpam1Rest = s.mpam1Rest := by cases h <;> rfl
@[simp] theorem returned_text (h : HandlerEL) (a : Word) (s : State) :
    (returned h a s).text = s.text := by cases h <;> rfl
@[simp] theorem returned_mem (h : HandlerEL) (a : Word) (s : State) :
    (returned h a s).mem = s.mem := by cases h <;> rfl
@[simp] theorem returned_exc1 (h : HandlerEL) (a : Word) (s : State) :
    (returned h a s).exc1 = if h = .el1 then ⟨s.exc1.esr, a, s.exc1.spsr⟩ else s.exc1 := by cases h <;> rfl
@[simp] theorem returned_exc2 (h : HandlerEL) (a : Word) (s : State) :
    (returned h a s).exc2 = if h = .el2 then ⟨s.exc2.esr, a, s.exc2.spsr⟩ else s.exc2 := by cases h <;> rfl
@[simp] theorem returned_exc3 (h : HandlerEL) (a : Word) (s : State) :
    (returned h a s).exc3 = if h = .el3 then ⟨s.exc3.esr, a, s.exc3.spsr⟩ else s.exc3 := by cases h <;> rfl
@[simp] theorem returned_debugError (h : HandlerEL) (a : Word) (s : State) :
    (returned h a s).debugError = s.debugError := by cases h <;> rfl
@[simp] theorem returned_enPending (h : HandlerEL) (a : Word) (s : State) :
    (returned h a s).enPending = [] := rfl
@[simp] theorem returned_m2Pending (h : HandlerEL) (a : Word) (s : State) :
    (returned h a s).m2Pending = [] := rfl
@[simp] theorem returned_nvLog (h : HandlerEL) (a : Word) (s : State) :
    (returned h a s).nvLog = s.nvLog := by cases h <;> rfl
@[simp] theorem returned_events (h : HandlerEL) (a : Word) (s : State) :
    (returned h a s).events = s.events := by cases h <;> rfl
@[simp] theorem returned_draws (h : HandlerEL) (a : Word) (s : State) :
    (returned h a s).draws = s.draws := by cases h <;> rfl

/-! ### Placing an instruction -/

@[simp] theorem withFetchWord_cfg (s : State) (nbits w : Nat) :
    (s.withFetchWord nbits w).cfg = s.cfg := rfl
@[simp] theorem withFetchWord_inp (s : State) (nbits w : Nat) :
    (s.withFetchWord nbits w).inp = s.inp := rfl
@[simp] theorem withFetchWord_pc (s : State) (nbits w : Nat) :
    (s.withFetchWord nbits w).pc = s.pc := rfl
@[simp] theorem withFetchWord_x (s : State) (nbits w : Nat) :
    (s.withFetchWord nbits w).x = s.x := rfl
@[simp] theorem withFetchWord_pstate (s : State) (nbits w : Nat) :
    (s.withFetchWord nbits w).pstate = s.pstate := rfl
@[simp] theorem withFetchWord_mpamen (s : State) (nbits w : Nat) :
    (s.withFetchWord nbits w).mpamen = s.mpamen := rfl
@[simp] theorem withFetchWord_traplower (s : State) (nbits w : Nat) :
    (s.withFetchWord nbits w).traplower = s.traplower := rfl
@[simp] theorem withFetchWord_mpam3Rest (s : State) (nbits w : Nat) :
    (s.withFetchWord nbits w).mpam3Rest = s.mpam3Rest := rfl
@[simp] theorem withFetchWord_m2 (s : State) (nbits w : Nat) :
    (s.withFetchWord nbits w).m2 = s.m2 := rfl
@[simp] theorem withFetchWord_mpam1Rest (s : State) (nbits w : Nat) :
    (s.withFetchWord nbits w).mpam1Rest = s.mpam1Rest := rfl
@[simp] theorem withFetchWord_text (s : State) (nbits w : Nat) :
    (s.withFetchWord nbits w).text = storeWord32 s.text s.pc.toNat (BitVec.ofNat 32 (w % 2 ^ nbits)) := rfl
@[simp] theorem withFetchWord_mem (s : State) (nbits w : Nat) :
    (s.withFetchWord nbits w).mem = s.mem := rfl
@[simp] theorem withFetchWord_exc1 (s : State) (nbits w : Nat) :
    (s.withFetchWord nbits w).exc1 = s.exc1 := rfl
@[simp] theorem withFetchWord_exc2 (s : State) (nbits w : Nat) :
    (s.withFetchWord nbits w).exc2 = s.exc2 := rfl
@[simp] theorem withFetchWord_exc3 (s : State) (nbits w : Nat) :
    (s.withFetchWord nbits w).exc3 = s.exc3 := rfl
@[simp] theorem withFetchWord_debugError (s : State) (nbits w : Nat) :
    (s.withFetchWord nbits w).debugError = s.debugError := rfl
@[simp] theorem withFetchWord_enPending (s : State) (nbits w : Nat) :
    (s.withFetchWord nbits w).enPending = s.enPending := rfl
@[simp] theorem withFetchWord_m2Pending (s : State) (nbits w : Nat) :
    (s.withFetchWord nbits w).m2Pending = s.m2Pending := rfl
@[simp] theorem withFetchWord_nvLog (s : State) (nbits w : Nat) :
    (s.withFetchWord nbits w).nvLog = s.nvLog := rfl
@[simp] theorem withFetchWord_events (s : State) (nbits w : Nat) :
    (s.withFetchWord nbits w).events = s.events := rfl
@[simp] theorem withFetchWord_draws (s : State) (nbits w : Nat) :
    (s.withFetchWord nbits w).draws = s.draws := rfl

/-! ### Reading the registers back -/

@[simp] theorem bank_setBank (s : State) (h : HandlerEL) (b : ExcBank) :
    bank (setBank s h b) h = b := by cases h <;> rfl

theorem bank_setBank_of_ne (s : State) (h k : HandlerEL) (b : ExcBank) (hk : k ≠ h) :
    bank (setBank s h b) k = bank s k := by cases h <;> cases k <;> first | rfl | exact absurd rfl hk

theorem readX_writeX_same (s : State) (t : RegNum) (v : Word) (ht : t < 31) :
    readX (writeX s t v) t = v := by simp [readX, writeX, ht]

theorem readX_writeX_other (s : State) (t u : RegNum) (v : Word) (hu : u ≠ t) :
    readX (writeX s t v) u = readX s u := by
  unfold readX writeX
  by_cases hu31 : u < 31
  · by_cases ht : t < 31
    · simp [hu31, ht, Vector.getElem_set_ne, Ne.symm hu]
    · simp [hu31, ht]
  · simp [hu31]

theorem readX_xzr (s : State) : readX s 31 = 0#64 := rfl

theorem writeX_xzr (s : State) (v : Word) : writeX s 31 v = s := rfl

end Sys2Proof.Machine
end

