-- ==== Sys2Proof/Laws/Ops.lean ====
section
/-! SUPPORT. For each shared operation, everything it can answer, said once: a later proof cites these
and unfolds none of the operations. -/

namespace Sys2Proof.Machine

/-- `complete` answers the state with the pc moved on, or refuses at the last word. -/
theorem complete_cases (s : State) :
    (s.pc.toNat + 4 < 2 ^ 64 ∧ complete s = .next (tick { s with pc := s.pc + 4#64 })) ∨
      (2 ^ 64 ≤ s.pc.toNat + 4 ∧ complete s = .refused .pcWrap) := by
  unfold complete
  split
  · exact .inl ⟨by assumption, rfl⟩
  · exact .inr ⟨by omega, rfl⟩

theorem complete_next {s s' : State} (h : complete s = .next s') :
    s.pc.toNat + 4 < 2 ^ 64 ∧ s' = tick { s with pc := s.pc + 4#64 } := by
  rcases complete_cases s with ⟨hr, e⟩ | ⟨-, e⟩ <;> rw [e] at h
  · cases h; exact ⟨hr, rfl⟩
  · cases h

theorem complete_eq_next {s : State} (h : s.pc.toNat + 4 < 2 ^ 64) :
    complete s = .next (tick { s with pc := s.pc + 4#64 }) := if_pos h

/-- What is not refused is of a state the spec admits whose text does not overlap NVMem. -/
theorem unlessRefused_next {s s' : State} {o : Out} (h : unlessRefused s o = .next s') :
    s.admitted = true ∧ textOverlapsNVMem s = false ∧ o = .next s' := by
  unfold unlessRefused at h
  split at h
  · split at h
    · cases h
    · exact ⟨by assumption, by simp_all, h⟩
  · cases h

theorem unlessRefused_of {s : State} (o : Out) (ha : s.admitted = true)
    (ht : textOverlapsNVMem s = false) : unlessRefused s o = o := by
  simp [unlessRefused, ha, ht]

theorem nextUnlessRefused_next {s s' : State} (h : nextUnlessRefused s = .next s') :
    s'.admitted = true ∧ textOverlapsNVMem s' = false ∧ s' = s := by
  obtain ⟨ha, ht, hs⟩ := unlessRefused_next h
  cases hs
  exact ⟨ha, ht, rfl⟩

/-- A raised exception answers a next state only where exceptions are entered, and then the entry. -/
theorem raise_next {i : Instr} {e : Exc} {s s' : State} (h : raise i e s = .next s') :
    s.cfg.onException = .enter ∧
      ((e = .undefined ∧ s' = tick (takeUndefined s)) ∨
        ∃ k, e = .systemAccessTrap k ∧ s' = tick (enterException k (trapEsr i) s)) := by
  unfold raise at h
  split at h <;> first | (cases h; done) | skip
  · next he => cases h; exact ⟨he, .inl ⟨rfl, rfl⟩⟩
  · next k he => cases h; exact ⟨he, .inr ⟨k, rfl, rfl⟩⟩

/-- Where exceptions stop the run, a raised exception is a fault, never a next state. -/
theorem raise_stop {i : Instr} {e : Exc} {s s' : State} (hs : s.cfg.onException = .stop) :
    raise i e s ≠ .next s' := by
  intro h
  have := (raise_next h).1
  simp [hs] at this

/-- An Undefined exception is the error flag in Debug state, an entry otherwise. -/
theorem takeUndefined_cases (s : State) :
    (s.inp.halted = true ∧ takeUndefined s = { s with debugError := true }) ∨
      (s.inp.halted = false ∧
        takeUndefined s = enterException (undefinedTarget s) (undefinedEsr s) s) := by
  unfold takeUndefined
  cases s.inp.halted
  · exact .inr ⟨rfl, rfl⟩
  · exact .inl ⟨rfl, rfl⟩

/-- The test of TRAPLOWER has three ways on. -/
theorem unlessTrapLower_cases (i : Instr) (s : State) (k : Out) :
    (t3 s = false ∧ unlessTrapLower i s k = k) ∨
      (t3 s = true ∧ sd s = true ∧ unlessTrapLower i s k = raise i .undefined s) ∨
        (t3 s = true ∧ sd s = false ∧
          unlessTrapLower i s k = raise i (.systemAccessTrap .el3) s) := by
  unfold unlessTrapLower
  cases t3 s <;> cases sd s <;> simp

/-- A return answers an admitted state, no higher than before, at an aligned address. -/
theorem returnThrough_next {k : HandlerEL} {adv : Bool} {s s' : State}
    (h : returnThrough k adv s = .next s') :
    s' = tick (returned k (returnAddress (bank s k) adv) s) ∧ s'.admitted = true ∧
      textOverlapsNVMem s' = false ∧
      (returnAddress (bank s k) adv).toNat % 4 = 0 ∧
      (bank s k).spsr.el.toNat ≤ s.pstate.el.toNat := by
  unfold returnThrough at h
  split at h
  · cases h
  · split at h
    · cases h
    · split at h
      · cases h
      · obtain ⟨ha, ht, rfl⟩ := nextUnlessRefused_next h
        exact ⟨rfl, ha, ht, by omega, by omega⟩

/-- Which path an `MRS` or `MSR` of MPAM2_EL2 takes is its decision table's verdict. -/
theorem accessMpam2_verdict (i : Instr) (s : State) (k : Out) (hi : i.sysReg = .mpam2El2) :
    accessMpam2 i s k =
      match verdict i s with
      | .undefined => raise i .undefined s
      | .trap h => raise i (.systemAccessTrap h) s
      | .access _ => k := by
  unfold accessMpam2 verdict unlessTrapLower tableMpam2
  rw [hi]
  cases s.cfg.featMPAM <;> cases s.pstate.el <;> cases nvt s <;> cases t3 s <;> cases sd s <;> rfl

/-- Which path an `MRS` or `MSR` of MPAM1_EL1 takes is its decision table's verdict. -/
theorem accessMpam1_verdict (i : Instr) (s : State) (nv m2 m1 : Out)
    (hi : i.sysReg = .mpam1El1) :
    accessMpam1 i s nv m2 m1 =
      match verdict i s with
      | .undefined => raise i .undefined s
      | .trap h => raise i (.systemAccessTrap h) s
      | .access .nvMem => nv
      | .access .mpam2 => m2
      | .access _ => m1 := by
  unfold accessMpam1 verdict unlessTrapLower tableMpam1
  rw [hi]
  cases s.cfg.featMPAM <;> cases s.pstate.el <;> cases t3 s <;> cases sd s <;> cases t2 s <;>
    cases nv2m s <;> cases e2h s <;> rfl

/-- Which path an `MRS` or `MSR` of MPAM3_EL3 takes is its column of 60_exceptions.md R160. -/
theorem accessMpam3_verdict (i : Instr) (s : State) (k : Out) (hi : i.sysReg = .mpam3El3) :
    accessMpam3 i s k =
      match verdict i s with
      | .undefined => raise i .undefined s
      | .trap h => raise i (.systemAccessTrap h) s
      | .access _ => k := by
  unfold accessMpam3 verdict
  rw [hi]
  cases s.cfg.featMPAM <;> cases s.cfg.haveEL3 <;> cases s.pstate.el <;> rfl

/-- A synchronised read shows the current MPAMEN. -/
theorem mpamenSeen_of_synced (s : State) (v : View) (h : s.synced = true) :
    mpamenSeen s v = s.mpamen := by
  unfold mpamenSeen
  cases hm : s.cfg.syncModel
  · rfl
  · simp only [State.synced, hm, reduceCtorEq, decide_false, Bool.false_or, Bool.and_eq_true,
      List.isEmpty_iff] at h
    simp [h.1, olderValues, oldOrNew]

/-- A synchronised read shows the current field of MPAM2_EL2. -/
theorem m2Seen_of_synced {α : Type} (s : State) (v : View) (f : M2Field) (get : M2 → α)
    (h : s.synced = true) : m2Seen s v f get = get s.m2 := by
  unfold m2Seen
  cases hm : s.cfg.syncModel
  · rfl
  · simp only [State.synced, hm, reduceCtorEq, decide_false, Bool.false_or, Bool.and_eq_true,
      List.isEmpty_iff] at h
    simp [h.2, olderValues, oldOrNew]

/-- What is shown is the current value or one of the older ones. -/
theorem oldOrNew_mem {α : Type} (k : Word) (new : α) (olds : List α) :
    oldOrNew k new olds ∈ new :: olds := by
  cases olds with
  | nil => simp [oldOrNew]
  | cons o os =>
    have hlt : k.toNat % (os.length + 2) < (new :: o :: os).length :=
      Nat.mod_lt _ (Nat.succ_pos _)
    change (new :: o :: os).getD (k.toNat % (os.length + 2)) new ∈ _
    rw [List.getD_eq_getElem _ _ hlt]
    exact List.getElem_mem hlt

end Sys2Proof.Machine
end

