-- ==== Sys2Proof/Laws/Exec.lean ====
section
/-! SUPPORT. What an instruction can do, said once: its verdict's outcome, and where the verdict is an
access, one of ten performed accesses, each a completed state. -/

namespace Sys2Proof.Machine

/-- The access an instruction performs on what its verdict reaches. -/
def performed (i : Instr) (r : Reach) (s : State) : Out :=
  match i, r with
  | .mrsMpam2El2 t, _ => moveToX t (readMPAM2 .mpam2 s) s
  | .msrMpam2El2 t, _ => complete (writeMPAM2 .mpam2 (readX s t) s)
  | .mrsMpam1El1 t, .nvMem => readNVMem t s
  | .mrsMpam1El1 t, .mpam2 => moveToX t (readMPAM2 .mpam2ViaMpam1 s) s
  | .mrsMpam1El1 t, _ => moveToX t (readMPAM1 s) s
  | .msrMpam1El1 t, .nvMem => writeNVMem t s
  | .msrMpam1El1 t, .mpam2 => complete (writeMPAM2 .mpam2ViaMpam1 (readX s t) s)
  | .msrMpam1El1 t, _ => complete (writeMPAM1 (readX s t) s)
  | .mrsMpam3El3 t, _ => moveToX t (readMPAM3 s) s
  | .msrMpam3El3 t, _ => complete (writeMPAM3 (readX s t) s)

/-- Every instruction is its verdict: an exception raised, or the access performed. -/
theorem exec_verdict (i : Instr) (s : State) :
    exec i s =
      match verdict i s with
      | .undefined => raise i .undefined s
      | .trap h => raise i (.systemAccessTrap h) s
      | .access r => performed i r s := by
  cases i <;> simp only [exec, execMrsMpam2El2, execMsrMpam2El2, execMrsMpam1El1,
    execMsrMpam1El1, execMrsMpam3El3, execMsrMpam3El3]
  all_goals
    first
    | rw [accessMpam2_verdict _ _ _ rfl]
    | rw [accessMpam1_verdict _ _ _ _ _ rfl]
    | rw [accessMpam3_verdict _ _ _ rfl]
    generalize verdict _ s = v
    rcases v with _ | _ | r <;> first | rfl | (cases r <;> rfl)

/-- A performed access completes a state that keeps the pc, the exception state, the parameters, the
inputs and the environment's queue. -/
theorem performed_completes (i : Instr) (r : Reach) (s : State) :
    ∃ u : State, performed i r s = complete u ∧ u.pc = s.pc ∧ sameExc s u ∧ sameGiven s u := by
  cases i <;> cases r <;> exact ⟨_, rfl, by simp [sameExc, sameGiven]⟩

/-- A performed access is no fault. -/
theorem performed_ne_fault (i : Instr) (r : Reach) (s : State) (f : Fault) :
    performed i r s ≠ .fault f := by
  obtain ⟨u, h, -⟩ := performed_completes i r s
  rw [h]
  rcases complete_cases u with ⟨-, e⟩ | ⟨-, e⟩ <;> rw [e] <;> simp

/-- If an instruction answers a next state, it took an exception or performed an access. -/
theorem exec_next {i : Instr} {s s' : State} (h : exec i s = .next s') :
    (verdict i s = .undefined ∧ s.cfg.onException = .enter ∧ s' = tick (takeUndefined s)) ∨
      (∃ k, verdict i s = .trap k ∧ s.cfg.onException = .enter ∧
        s' = tick (enterException k (trapEsr i) s)) ∨
        ∃ r, verdict i s = .access r ∧ performed i r s = .next s' := by
  rw [exec_verdict] at h
  split at h
  · next hv =>
    obtain ⟨he, ⟨-, hs⟩ | ⟨k, hk, -⟩⟩ := raise_next h
    · exact .inl ⟨hv, he, hs⟩
    · cases hk
  · next k hv =>
    obtain ⟨he, ⟨hu, -⟩ | ⟨k', hk, hs⟩⟩ := raise_next h
    · cases hu
    · cases hk
      exact .inr (.inl ⟨k, hv, he, hs⟩)
  · next r hv => exact .inr (.inr ⟨r, hv, h⟩)

/-- Which pairs of an instruction and what it reaches occur. -/
theorem verdict_access_reach {i : Instr} {r : Reach} {s : State} (h : verdict i s = .access r) :
    (i.sysReg = .mpam2El2 ∧ r = .mpam2) ∨
      (i.sysReg = .mpam1El1 ∧ (r = .mpam1 ∨ r = .mpam2 ∨ r = .nvMem)) ∨
        (i.sysReg = .mpam3El3 ∧ r = .mpam3 ∧ s.pstate.el = .el3 ∧ s.cfg.haveEL3 = true ∧
          s.cfg.featMPAM = true) := by
  unfold verdict at h
  cases hf : s.cfg.featMPAM
  · simp [hf] at h
  · simp only [hf, Bool.not_true, Bool.false_eq_true, if_false] at h
    cases hi : i.sysReg <;> rw [hi] at h <;> simp only at h
    · unfold tableMpam1 at h
      split at h <;> simp_all
    · unfold tableMpam2 at h
      split at h <;> simp_all
    · split at h
      · split at h <;> simp_all
      · cases h

end Sys2Proof.Machine
end

