-- ==== Sys2Proof/Laws/PerInstr.lean ====
section
/-! SUPPORT. A statement about every instruction, one lemma per constructor: its encoding is the match
of its row with `Rt` in the five bits the mask leaves out (30_encoding.md R95). -/

namespace Sys2Proof.Laws

/-- The match of a row of 30_encoding.md R95. -/
def EncodeMatch.rowMatch : Instr → BitVec 32
  | .mrsMpam1El1 _ => 0xD538A500#32
  | .msrMpam1El1 _ => 0xD518A500#32
  | .mrsMpam2El2 _ => 0xD53CA500#32
  | .msrMpam2El2 _ => 0xD51CA500#32
  | .mrsMpam3El3 _ => 0xD53EA500#32
  | .msrMpam3El3 _ => 0xD51EA500#32

/-- The word of an instruction is its row's match and `Rt`. -/
def EncodeMatch.Statement (i : Instr) : Prop :=
  encodeWord i = EncodeMatch.rowMatch i ||| (BitVec.ofNat 5 i.rt).setWidth 32

theorem EncodeMatch.word_eq (r : SysReg) (d : Bool) (b : BitVec 5) :
    sysMoveWord d r.enc b = sysMoveWord d r.enc 0#5 ||| b.setWidth 32 := by
  simp [sysMoveWord]

theorem EncodeMatch.mrsMpam2El2 (t : RegNum) : EncodeMatch.Statement (.mrsMpam2El2 t) :=
  EncodeMatch.word_eq .mpam2El2 true _

theorem EncodeMatch.msrMpam2El2 (t : RegNum) : EncodeMatch.Statement (.msrMpam2El2 t) :=
  EncodeMatch.word_eq .mpam2El2 false _

theorem EncodeMatch.mrsMpam1El1 (t : RegNum) : EncodeMatch.Statement (.mrsMpam1El1 t) :=
  EncodeMatch.word_eq .mpam1El1 true _

theorem EncodeMatch.msrMpam1El1 (t : RegNum) : EncodeMatch.Statement (.msrMpam1El1 t) :=
  EncodeMatch.word_eq .mpam1El1 false _

theorem EncodeMatch.mrsMpam3El3 (t : RegNum) : EncodeMatch.Statement (.mrsMpam3El3 t) :=
  EncodeMatch.word_eq .mpam3El3 true _

theorem EncodeMatch.msrMpam3El3 (t : RegNum) : EncodeMatch.Statement (.msrMpam3El3 t) :=
  EncodeMatch.word_eq .mpam3El3 false _

end Sys2Proof.Laws
end

