-- ==== Sys2Proof/Laws/Step.lean ====
section
/-! SUPPORT. What a step can do, said once: the environment's next event, or the fetched instruction. -/

namespace Sys2Proof.Machine

/-- A step that answers a next state took an event or ran an instruction. -/
theorem step_next {s s' : State} (h : step s = .next s') :
    s.admitted = true ∧ textOverlapsNVMem s = false ∧
      ((∃ e rest, s.events = e :: rest ∧ runEvent e { s with events := rest } = .next s') ∨
        (s.events = [] ∧ ∃ i, fetch s = .next i ∧ exec i s = .next s')) := by
  obtain ⟨ha, ht, h⟩ := unlessRefused_next h
  refine ⟨ha, ht, ?_⟩
  split at h
  · next e rest he => exact .inl ⟨e, rest, he, h⟩
  · next he =>
    split at h
    · next i hi => exact .inr ⟨he, i, hi, h⟩
    · cases h
    · cases h

/-- An exception return that answers a next state returns through its level's registers. -/
theorem exceptionReturn_next {adv : Bool} {s s' : State} (h : exceptionReturn adv s = .next s') :
    ∃ k : HandlerEL, s.pstate.el = k.toEL ∧
      s' = tick (returned k (returnAddress (bank s k) adv) s) ∧ s'.admitted = true ∧
      textOverlapsNVMem s' = false ∧ (returnAddress (bank s k) adv).toNat % 4 = 0 ∧
      (bank s k).spsr.el.toNat ≤ s.pstate.el.toNat := by
  unfold exceptionReturn at h
  split at h
  · cases h
  · next he => exact ⟨.el1, he, returnThrough_next h⟩
  · next he => exact ⟨.el2, he, returnThrough_next h⟩
  · next he => exact ⟨.el3, he, returnThrough_next h⟩

/-- An event that answers a next state. -/
theorem runEvent_next {e : EnvEvent} {s s' : State} (h : runEvent e s = .next s') :
    (e = .warmReset ∧ s'.admitted = true ∧ textOverlapsNVMem s' = false ∧ s' = warmReset s) ∨
      (e = .contextSync ∧ s' = tick (contextSync s)) ∨
        (∃ adv, e = .exceptionReturn adv ∧ exceptionReturn adv s = .next s') ∨
          ∃ inp, e = .setInputs inp ∧ s'.admitted = true ∧ textOverlapsNVMem s' = false ∧
            s' = tick { s with inp := inp } := by
  cases e with
  | warmReset =>
    obtain ⟨ha, ht, rfl⟩ := nextUnlessRefused_next h
    exact .inl ⟨rfl, ha, ht, rfl⟩
  | contextSync => cases h; exact .inr (.inl ⟨rfl, rfl⟩)
  | exceptionReturn adv => exact .inr (.inr (.inl ⟨adv, rfl, h⟩))
  | setInputs inp =>
    obtain ⟨ha, ht, rfl⟩ := nextUnlessRefused_next h
    exact .inr (.inr (.inr ⟨inp, rfl, ha, ht, rfl⟩))

/-- Where an instruction is fetched, the step is the fetch's answer. -/
theorem step_of_ready {s : State} (h : readyToFetch s) :
    step s =
      match fetch s with
      | .next i => exec i s
      | .fault f => .fault f
      | .refused r => .refused r := by
  obtain ⟨ha, ht, he, -⟩ := h
  cases hf : fetch s <;> simp [step, unlessRefused_of _ ha ht, he, hf]

end Sys2Proof.Machine
end

