-- ==== Sys2Proof/Tests/Slice0.lean ====
section
/-! SUPPORT. Tests of the model on fixed values, each expected result from the spec, and, for every
statement that has hypotheses, a state and operands that meet them (names `witness_…`). -/

namespace Sys2Proof.Tests

open Sys2Proof Sys2Proof.Machine

/-! ### Helpers -/

/-- Whether an outcome is a next state with a property. -/
def nextIs (o : Out) (p : State → Bool) : Bool :=
  match o with
  | .next s => p s
  | _ => false

theorem nextIs_elim {o : Out} {p : State → Bool} (h : nextIs o p = true) :
    ∃ s', o = .next s' ∧ p s' = true := by
  cases o with
  | next s => exact ⟨s, rfl, h⟩
  | fault f => cases h
  | refused r => cases h

/-- K0 of 95_test_vectors.md at a level, with EL2 enabled and TRAPLOWER = 0, at pc 0x1000. -/
def k0At (e : EL) : State :=
  { State.reset with
    pc := 0x1000#64
    pstate := PState.afterReset e
    traplower := false
    inp := { Inputs.zero with el2Enabled := true } }

/-- The same with `HAVE_EL3 = false`. -/
def noEL3 (s : State) : State := { s with cfg := { s.cfg with haveEL3 := false } }

/-- The same with TRAPLOWER = 1. -/
def trapping (s : State) : State := { s with traplower := true }

/-- The same in Debug state, with a value of EDSCR.SDD. -/
def inDebug (sdd : Bool) (s : State) : State :=
  { s with inp := { s.inp with halted := true, edscrSDD := sdd } }

/-- The same with HCR_EL2.<NV2,NV1,NV> = '111' and VNCR_BASE = 0x80000. -/
def nested (s : State) : State :=
  { s with inp := { s.inp with hcrNV := true, hcrNV1 := true, hcrNV2 := true, vncrPage := 0x80#52 } }

/-- The same with HCR_EL2.E2H = 1. -/
def e2hOn (s : State) : State := { s with inp := { s.inp with hcrE2H := true } }

/-- The same with MPAM2_EL2.TRAPMPAM1EL1 = 1. -/
def trap1 (s : State) : State := { s with m2 := { s.m2 with trapMpam1El1 := true } }

/-- The same with the run stopping at an exception. -/
def stopping (s : State) : State := { s with cfg := { s.cfg with onException := .stop } }

/-- The same without FEAT_MPAM. -/
def noMpam (s : State) : State := { s with cfg := { s.cfg with featMPAM := false } }

/-- The same at the last word of the address space. -/
def atTop (s : State) : State := { s with pc := 0xFFFFFFFFFFFFFFFC#64 }

/-- The fields of vector F1. -/
def m2F1 : M2 := ⟨0#4, false, false, 0#8, true, false, 0x12#8, 0x34#8, 0x5678#16, 0x9ABC#16⟩

/-! ### WellFormed: an ill-formed term for the one check, per constructor (30_encoding.md R94, R96) -/

theorem test_wellFormed_refuses_32 :
    (Instr.mrsMpam2El2 32).wellFormed = false ∧ (Instr.msrMpam2El2 32).wellFormed = false ∧
    (Instr.mrsMpam1El1 32).wellFormed = false ∧ (Instr.msrMpam1El1 32).wellFormed = false ∧
    (Instr.mrsMpam3El3 32).wellFormed = false ∧ (Instr.msrMpam3El3 32).wellFormed = false := by
  decide

theorem test_wellFormed_accepts_31 : (Instr.mrsMpam2El2 31).wellFormed = true := by decide

/-! ### Decode: words written out bit by bit from 30_encoding.md R94 and R95
(1101010100, L, 1, o0, op1, CRn, CRm, op2, Rt) -/

theorem test_decode_mrsMpam1El1 :
    decodeTableWord 32 0b1101010100_1_11_000_1010_0101_000_00101 = some (.mrsMpam1El1 5) := by
  decide

theorem test_decode_msrMpam1El1 :
    decodeTableWord 32 0b1101010100_0_11_000_1010_0101_000_00011 = some (.msrMpam1El1 3) := by
  decide

theorem test_decode_mrsMpam2El2 :
    decodeTableWord 32 0b1101010100_1_11_100_1010_0101_000_01001 = some (.mrsMpam2El2 9) := by
  decide

theorem test_decode_msrMpam2El2 :
    decodeTableWord 32 0b1101010100_0_11_100_1010_0101_000_11111 = some (.msrMpam2El2 31) := by
  decide

theorem test_decode_mrsMpam3El3 :
    decodeTableWord 32 0b1101010100_1_11_110_1010_0101_000_00000 = some (.mrsMpam3El3 0) := by
  decide

theorem test_decode_msrMpam3El3 :
    decodeTableWord 32 0b1101010100_0_11_110_1010_0101_000_10000 = some (.msrMpam3El3 16) := by
  decide

/-- E1 to E6, the column `Rt = 5`. -/
theorem test_encode_words :
    encodeWord (.mrsMpam1El1 5) = 0xD538A505#32 ∧ encodeWord (.msrMpam1El1 5) = 0xD518A505#32 ∧
    encodeWord (.mrsMpam2El2 5) = 0xD53CA505#32 ∧ encodeWord (.msrMpam2El2 5) = 0xD51CA505#32 ∧
    encodeWord (.mrsMpam3El3 5) = 0xD53EA505#32 ∧ encodeWord (.msrMpam3El3 5) = 0xD51EA505#32 := by
  decide

/-- E3: the bytes in memory. -/
theorem test_encode_bytes : encode (.mrsMpam2El2 0) = [0x00#8, 0xA5#8, 0x3C#8, 0xD5#8] := by decide

/-- E9 to E11, and a word that is no System register move (a NOP, 0xD503201F). -/
theorem test_decode_refuses :
    decodeTableWord 32 0xD53CA520 = none ∧ decodeTableWord 32 0xD53CA400 = none ∧
    decodeTableWord 32 0xD53DA500 = none ∧ decodeTableWord 32 0xD503201F = none := by
  decide

/-! ### MPAM2_EL2: 95_test_vectors.md 2.2 and 2.4 -/

/-- A13 with F1: at EL3, whatever TRAPLOWER and Debug state; MPAMEN = 1. -/
theorem test_mrsMpam2El2_reads :
    nextIs (exec (.mrsMpam2El2 5) (trapping (inDebug true { k0At .el3 with mpamen := true, m2 := m2F1 })))
      (fun s => decide (readX s 5 = 0x8002123456789ABC#64) && decide (s.pc = 0x1004#64)) = true := by
  decide

/-- P6 (c): at EL1 with NV and TRAPLOWER, to EL3. -/
theorem test_mrsMpam2El2_traps :
    nextIs (exec (.mrsMpam2El2 9) (trapping (nested (k0At .el1))))
      (fun s => decide (s.exc3.esr = 0x6231292B#32) && decide (s.exc3.elr = 0x1000#64) &&
        decide (s.pstate.el = .el3) && decide (s.pc = 0x400#64)) = true := by
  decide

/-- P1 (W1): bit 63 and the RES0 bits are dropped. -/
theorem test_msrMpam2El2_writes :
    nextIs (exec (.msrMpam2El2 1) (writeX (k0At .el3) 1 0xFFFFFFFFFFFFFFFF#64))
      (fun s => decide (readMPAM2 .mpam2 s = 0x0003FFFFFFFFFFFF#64) && !s.mpamen) = true := by
  decide

/-- M5 and W12: without EL3, at EL2, bit 63 becomes MPAMEN. -/
theorem test_msrMpam2El2_enable :
    nextIs (exec (.msrMpam2El2 0) (writeX (noEL3 (k0At .el2)) 0 0xA5A5A5A5A5A5A5A5#64))
      (fun s => s.mpamen && decide (readMPAM2 .mpam2 s = 0x8001A5A5A5A5A5A5#64)) = true := by
  decide

/-! ### MPAM1_EL1: 95_test_vectors.md 2.3 and P2, P3, P5 -/

/-- B12 with F5: at EL2 with E2H the encoding reads MPAM2_EL2, TRAPMPAM1EL1 untested. -/
theorem test_mrsMpam1El1_reads_mpam2 :
    nextIs (exec (.mrsMpam1El1 4) (e2hOn
        { k0At .el2 with m2 := ⟨0#4, false, false, 0#8, false, true, 0#8, 0#8, 7#16, 7#16⟩ }))
      (fun s => decide (readX s 4 = 0x0001000000070007#64)) = true := by
  decide

/-- P3 (a), B4: the trap to EL2, with nothing moved. -/
theorem test_mrsMpam1El1_traps :
    nextIs (exec (.mrsMpam1El1 0) (trap1 (nested (writeX (k0At .el1) 0 0x1111#64))))
      (fun s => decide (s.exc2.esr = 0x6230280B#32) && decide (s.exc2.elr = 0x1000#64) &&
        decide (readX s 0 = 0x1111#64) && decide (s.pstate.el = .el2) && s.nvLog.isEmpty) = true := by
  decide

/-- P5: the eight bytes at 0x80900, little-endian, and MPAM1_EL1 and MPAMEN unchanged. -/
theorem test_msrMpam1El1_stores :
    nextIs (exec (.msrMpam1El1 6) (nested (writeX (k0At .el1) 6 0xFFFF000012345678#64)))
      (fun s => decide ((List.range 8).map (fun n => Memory.read s.mem (0x80900 + n)) =
          [some 0x78#8, some 0x56#8, some 0x34#8, some 0x12#8, some 0#8, some 0#8, some 0xFF#8,
            some 0xFF#8]) &&
        decide (s.mpam1Rest = 0#64) && !s.mpamen) = true := by
  decide

/-- M7: at EL2 without E2H the write reaches MPAM1_EL1 and never MPAMEN, even without EL3. -/
theorem test_msrMpam1El1_writes :
    nextIs (exec (.msrMpam1El1 0) (writeX (noEL3 (k0At .el2)) 0 0x8000000000000000#64))
      (fun s => !s.mpamen && decide (s.mpam1Rest = 0x8000000000000000#64)) = true := by
  decide

/-! ### MPAM3_EL3: 95_test_vectors.md 2.8 -/

/-- G1 with the layout of GK3. -/
theorem test_mrsMpam3El3_reads :
    nextIs (exec (.mrsMpam3El3 0) (trapping
        { k0At .el3 with cfg := { Config.titled with mpam3Layout := some Layout.gk3 } }))
      (fun s => decide (readX s 0 = 0x4000000000000000#64)) = true := by
  decide

/-- G4: at EL2 Undefined, not a trap, whatever TRAPLOWER. -/
theorem test_mrsMpam3El3_undefined :
    exec (.mrsMpam3El3 0) (stopping (trapping (k0At .el2))) = .fault (.undefined (.mrsMpam3El3 0)) := by
  rfl

/-- G2. -/
theorem test_msrMpam3El3_writes :
    nextIs (exec (.msrMpam3El3 0) (writeX (k0At .el3) 0 0xC000000000000000#64))
      (fun s => s.mpamen && s.traplower && decide (s.pc = 0x1004#64)) = true := by
  decide

/-- G3: XZR writes 0. -/
theorem test_msrMpam3El3_xzr :
    nextIs (exec (.msrMpam3El3 31) (trapping { k0At .el3 with mpamen := true }))
      (fun s => !s.mpamen && !s.traplower) = true := by
  decide

/-! ### Shared operations -/

/-- Y1 to Y6. -/
theorem test_syndromes :
    trapEsr (.mrsMpam2El2 0) = 0x6231280B#32 ∧ trapEsr (.msrMpam2El2 0) = 0x6231280A#32 ∧
    trapEsr (.mrsMpam2El2 5) = 0x623128AB#32 ∧ trapEsr (.mrsMpam1El1 0) = 0x6230280B#32 ∧
    trapEsr (.msrMpam1El1 0) = 0x6230280A#32 ∧ trapEsr (.msrMpam1El1 3) = 0x6230286A#32 := by
  decide

/-- P5, NV_BIG_ENDIAN = true. -/
theorem test_bigEndian_bytes :
    dataBytes true 0xFFFF000012345678#64 =
      [0xFF#8, 0xFF#8, 0x00#8, 0x00#8, 0x12#8, 0x34#8, 0x56#8, 0x78#8] := by
  decide

/-- H3: after H2's write, a read through MPAM3_EL3 shows it, synchronised or not. -/
theorem test_own_view_sees_write :
    mpamenSeen (writeMPAM3 0x8000000000000000#64 (k0At .el3)) .mpam3 = true := by decide

/-- 20_memory.md R79: inputs that put NVAddr(0x900) over the program text are refused. -/
theorem test_setInputs_over_text :
    step { k0At .el3 with
        text := storeWord32 [] 0x80900 0xD51CA501#32
        events := [.setInputs { Inputs.zero with vncrPage := 0x80#52 }] } =
      .refused .textOverNVMem := by rfl

/-- The word placed at the pc runs first after reset, at EL3 (P1's first word). -/
theorem test_step_after_reset :
    nextIs (step (State.reset.withFetchWord 32 0xD51CA501)) (fun s => decide (s.pc = 4#64)) = true := by
  decide

/-! ### Witnesses: a state and operands that meet a statement's hypotheses -/

theorem witness_DecodeInvertsEncode :
    (Instr.mrsMpam2El2 31).wellFormed = true ∧ (Instr.msrMpam1El1 0).wellFormed = true := by decide

theorem witness_EncodeInvertsDecode :
    decode [0x1F#8, 0xA5#8, 0x3C#8, 0xD5#8, 0x77#8] = .ok (.mrsMpam2El2 31, [0x77#8]) := by rfl

theorem witness_WordsFollowMatchAndMask :
    decodeWord 0xD51EA51F#32 = .ok (.msrMpam3El3 31) ∧ (Instr.msrMpam3El3 31).wellFormed = true := by
  exact ⟨by rfl, by decide⟩

/-- Memory with E9's word, which matches no row, at the pc. -/
theorem witness_UnknownWordsAreRefused :
    readyToFetch ((k0At .el3).withFetchWord 32 0xD53CA520) ∧
    readWordBytes ((k0At .el3).withFetchWord 32 0xD53CA520).text 0x1000 =
      some (bytesOfWord 0xD53CA520#32) ∧
    ∀ (r : SysReg) (d : Bool), 0xD53CA520#32 &&& 0xFFFFFFE0#32 ≠ rowMatch r d := by
  refine ⟨by unfold readyToFetch; decide, by decide, ?_⟩
  intro r d
  cases r <;> cases d <;> decide

theorem witness_StepRunsTheDecodedInstruction :
    readyToFetch ((k0At .el2).withFetchWord 32 0xD538A51F) ∧
    readWordBytes ((k0At .el2).withFetchWord 32 0xD538A51F).text 0x1000 =
      some [0x1F#8, 0xA5#8, 0x38#8, 0xD5#8] ∧
    decode [0x1F#8, 0xA5#8, 0x38#8, 0xD5#8] = .ok (.mrsMpam1El1 31, []) ∧
    (Instr.mrsMpam1El1 31).wellFormed = true := by
  exact ⟨by unfold readyToFetch; decide, by decide, by rfl, by decide⟩

/-- At the lowest and at the highest pc. -/
theorem witness_PlacedWordsRun :
    (readyToFetch State.reset ∧ State.reset.pc.toNat + 4 ≤ (nvAddr State.reset).toNat) ∧
    (readyToFetch (atTop (k0At .el1)) ∧
      (nvAddr (atTop (k0At .el1))).toNat + 8 ≤ (atTop (k0At .el1)).pc.toNat) ∧
    (Instr.msrMpam2El2 31).wellFormed = true := by
  unfold readyToFetch
  decide

/-- Text whose last byte is the first of NVMem's, and whose first is its last. -/
theorem witness_OverlappingLaunchesAreRefused :
    (let s : State := { State.reset with pc := 0x8FD#64 }.withFetchWord 32 0xD51CA501
     s.admitted = true ∧ Memory.read s.text 0x900 = some 0xD5#8 ∧ inNVMem s 0x900) ∧
    (let s : State := { State.reset with pc := 0x907#64 }.withFetchWord 32 0xD51CA501
     s.admitted = true ∧ Memory.read s.text 0x907 = some 0x01#8 ∧ inNVMem s 0x907) := by
  unfold inNVMem
  decide

theorem witness_EveryStepDrawsAnew :
    (∃ s', step (State.reset.withFetchWord 32 0xD51CA501) = .next s' ∧
      decide (s'.pc = 4#64) = true) ∧
    ∃ s', step { k0At .el3 with events := [.contextSync] } = .next s' ∧
      decide (s'.pc = 0x1000#64) = true :=
  ⟨nextIs_elim (by decide), nextIs_elim (by decide)⟩

/-- One state steps by an instruction that traps, one by an event. -/
theorem witness_StepKeepsTheInvariant :
    ((trapping (k0At .el2)).withFetchWord 32 0xD538A51F).Inv ∧
    (∃ s', step ((trapping (k0At .el2)).withFetchWord 32 0xD538A51F) = .next s' ∧
      decide (s'.pstate.el = .el3) = true) ∧
    ({ k0At .el3 with events := [.warmReset] } : State).Inv ∧
    ∃ s', step { k0At .el3 with events := [.warmReset] } = .next s' ∧ decide (s'.pc = 0#64) = true :=
  ⟨by unfold State.Inv; decide, nextIs_elim (by decide), by unfold State.Inv; decide,
    nextIs_elim (by decide)⟩

theorem witness_GivensAreNeverWritten :
    (∃ s', step (State.reset.withFetchWord 32 0xD51CA501) = .next s' ∧
      decide (s'.pc = 4#64) = true) ∧
    ∃ s', exec (.msrMpam1El1 6) (nested (k0At .el1)) = .next s' ∧ decide (s'.pc = 0x1004#64) = true :=
  ⟨nextIs_elim (by decide), nextIs_elim (by decide)⟩

/-- By an exception return from EL3 to EL0, and by a Warm reset from EL2 to EL1. -/
theorem witness_OnlyReturnOrResetLowersTheLevel :
    (∃ s', step { k0At .el3 with events := [.exceptionReturn false] } = .next s' ∧
      decide (s'.pstate.el.toNat < (k0At .el3).pstate.el.toNat) = true) ∧
    ∃ s', step { k0At .el2 with
        events := [.warmReset], cfg := { Config.titled with resetEL := .el1 } } = .next s' ∧
      decide (s'.pstate.el.toNat < (k0At .el2).pstate.el.toNat) = true :=
  ⟨nextIs_elim (by decide), nextIs_elim (by decide)⟩

/-- A state for each clause of the two statements about MPAM2_EL2: EL3, EL2, EL0, EL1 without NV, EL1
with NV and no TRAPLOWER, and both levels with TRAPLOWER, with and without SD. -/
theorem witness_Mpam2El2Meaning :
    ((k0At .el3).cfg.featMPAM = true ∧ (k0At .el3).pstate.el = .el3 ∧
      roomForNext (k0At .el3) = true) ∧
    ((k0At .el2).pstate.el = .el2 ∧ t3 (k0At .el2) = false ∧ roomForNext (k0At .el2) = true) ∧
    (k0At .el0).pstate.el = .el0 ∧
    ((k0At .el1).pstate.el = .el1 ∧ nvt (k0At .el1) = false) ∧
    (nvt (nested (k0At .el1)) = true ∧ t3 (nested (k0At .el1)) = false) ∧
    (nvt (trapping (nested (k0At .el1))) = true ∧ t3 (trapping (nested (k0At .el1))) = true ∧
      sd (trapping (nested (k0At .el1))) = false ∧
      sd (inDebug true (trapping (nested (k0At .el1)))) = true) ∧
    (t3 (inDebug true (trapping (k0At .el2))) = true ∧
      sd (inDebug true (trapping (k0At .el2))) = true ∧
      sd (inDebug false (trapping (k0At .el2))) = false) := by
  decide

/-- The last pc at which an instruction can complete. -/
theorem witness_room_boundary :
    roomForNext { k0At .el3 with pc := 0xFFFFFFFFFFFFFFF8#64 } = true ∧
    roomForNext (atTop (k0At .el3)) = false := by
  decide

/-- A state for each clause of the two statements about MPAM1_EL1. -/
theorem witness_Mpam1El1Meaning :
    ((k0At .el3).pstate.el = .el3 ∧ roomForNext (k0At .el3) = true) ∧
    (t3 (k0At .el2) = false ∧ e2h (k0At .el2) = false) ∧
    (t3 (k0At .el1) = false ∧ t2 (k0At .el1) = false ∧ nv2m (k0At .el1) = false) ∧
    (t3 (e2hOn (k0At .el2)) = false ∧ e2h (e2hOn (k0At .el2)) = true) ∧
    (t3 (nested (k0At .el1)) = false ∧ t2 (nested (k0At .el1)) = false ∧
      nv2m (nested (k0At .el1)) = true ∧ roomForNext (nested (k0At .el1)) = true) ∧
    (t3 (trap1 (nested (k0At .el1))) = false ∧ t2 (trap1 (nested (k0At .el1))) = true) ∧
    (t3 (trapping (k0At .el1)) = true ∧ sd (trapping (k0At .el1)) = false ∧
      sd (inDebug true (trapping (k0At .el1))) = true) ∧
    (t3 (trapping (k0At .el2)) = true ∧ sd (trapping (k0At .el2)) = false) := by
  decide

theorem witness_Mpam3El3Meaning :
    ((k0At .el3).cfg.featMPAM = true ∧ (k0At .el3).cfg.haveEL3 = true ∧
      (k0At .el3).pstate.el = .el3 ∧ roomForNext (k0At .el3) = true) ∧
    (k0At .el2).pstate.el ≠ .el3 := by
  decide

theorem witness_AbsentRegistersAreUndefined :
    (noMpam (k0At .el3)).cfg.featMPAM = false ∧
    ((Instr.mrsMpam3El3 0).sysReg = .mpam3El3 ∧ (noEL3 (k0At .el2)).cfg.haveEL3 = false) := by
  decide

/-- One state for each thing an accessor can reach. -/
theorem witness_CompletingAtTheTopIsRefused :
    verdict (.mrsMpam2El2 0) (atTop (k0At .el2)) = .access .mpam2 ∧
    verdict (.msrMpam1El1 0) (atTop (k0At .el1)) = .access .mpam1 ∧
    verdict (.msrMpam1El1 0) (atTop (nested (k0At .el1))) = .access .nvMem ∧
    verdict (.msrMpam3El3 0) (atTop (k0At .el3)) = .access .mpam3 ∧
    roomForNext (atTop (k0At .el3)) = false := by
  decide

/-- Cases (a) to (d) of R142, and a state on no list, with exceptions entered and stopping. -/
theorem witness_TrapsToEL3AreTheListed :
    listedTrapEL3 (.mrsMpam2El2 0) (trapping (k0At .el2)) = true ∧
    listedTrapEL3 (.msrMpam2El2 0) (trapping (nested (k0At .el1))) = true ∧
    listedTrapEL3 (.mrsMpam1El1 0) (inDebug false (trapping (k0At .el1))) = true ∧
    listedTrapEL3 (.msrMpam1El1 0) (trapping (k0At .el2)) = true ∧
    listedTrapEL3 (.msrMpam1El1 0) (k0At .el2) = false ∧
    (stopping (k0At .el2)).cfg.onException = .stop := by
  decide

theorem witness_TrapsToEL2AreTheListed :
    listedTrapEL2 (.mrsMpam2El2 0) (nested (k0At .el1)) = true ∧
    listedTrapEL2 (.msrMpam1El1 0) (trap1 (noEL3 (trapping (k0At .el1)))) = true ∧
    listedTrapEL2 (.msrMpam1El1 0) (stopping (trap1 (k0At .el2))) = false := by
  decide

/-- Cases (a) to (e) of R144. -/
theorem witness_UndefinedAccessesAreTheListed :
    listedUndefined (.mrsMpam1El1 0) (noMpam (k0At .el3)) = true ∧
    listedUndefined (.mrsMpam1El1 0) (k0At .el0) = true ∧
    listedUndefined (.msrMpam2El2 0) (trapping (k0At .el1)) = true ∧
    listedUndefined (.msrMpam1El1 0) (inDebug true (trapping (k0At .el2))) = true ∧
    listedUndefined (.msrMpam3El3 0) (stopping (k0At .el2)) = true ∧
    listedUndefined (.msrMpam3El3 0) (stopping (k0At .el3)) = false := by
  decide

theorem witness_EveryInstructionHasOneOutcome :
    listedUndefined (.msrMpam1El1 6) (nested (k0At .el1)) = false ∧
    listedTrapEL3 (.msrMpam1El1 6) (nested (k0At .el1)) = false ∧
    listedTrapEL2 (.msrMpam1El1 6) (nested (k0At .el1)) = false ∧
    roomForNext (nested (k0At .el1)) = true := by
  decide

theorem witness_DebugExceptionToTraplower :
    ((k0At .el2).cfg.featMPAM = true ∧ (trapping (k0At .el2)).cfg.haveEL3 = true ∧
      (trapping (k0At .el2)).traplower = true ∧
      trapLowerCase (.mrsMpam2El2 0) (trapping (k0At .el2)) = true) ∧
    ((inDebug true (trapping (k0At .el2))).inp.halted = true ∧
      (inDebug true (trapping (k0At .el2))).inp.edscrSDD = true) ∧
    ¬((inDebug false (trapping (k0At .el2))).inp.halted = true ∧
      (inDebug false (trapping (k0At .el2))).inp.edscrSDD = true) ∧
    listedTrapEL2 (.mrsMpam1El1 0) (trap1 (k0At .el1)) = true := by
  decide

/-- By a trap to EL3 and by an Undefined in Debug state. -/
theorem witness_TraplowerShutsOutLowerLevels :
    t3 (trapping (k0At .el1)) = true ∧
    (∃ s', exec (.mrsMpam1El1 0) (trapping (k0At .el1)) = .next s' ∧
      decide (s'.pstate.el = .el3) = true) ∧
    ∃ s', exec (.msrMpam2El2 0) (inDebug true (trapping (k0At .el2))) = .next s' ∧
      s'.debugError = true :=
  ⟨by decide, nextIs_elim (by decide), nextIs_elim (by decide)⟩

theorem witness_EL3ReachesEveryRegister :
    (trapping (k0At .el3)).cfg.featMPAM = true ∧ (trapping (k0At .el3)).cfg.haveEL3 = true ∧
    (trapping (k0At .el3)).pstate.el = .el3 ∧ roomForNext (trapping (k0At .el3)) = true := by
  decide

theorem witness_DisabledEL2TrapsNothing :
    (trap1 State.reset).inp.el2Enabled = false ∧ (trap1 State.reset).m2.trapMpam1El1 = true := by
  decide

/-- Each level below its handler's. -/
theorem witness_TrapEntrySavesAndVectors :
    (k0At .el1).cfg.onException = .enter ∧
    (k0At .el1).pstate.el.toNat < HandlerEL.el2.toEL.toNat ∧
    (k0At .el2).pstate.el.toNat < HandlerEL.el3.toEL.toNat ∧
    (k0At .el0).pstate.el.toNat < HandlerEL.el1.toEL.toNat := by
  decide

theorem witness_SyndromeOfATrappedAccess :
    (Instr.mrsMpam2El2 31).wellFormed = true ∧ (Instr.mrsMpam2El2 31).sysReg = .mpam2El2 ∧
    (Instr.msrMpam1El1 31).wellFormed = true ∧ (Instr.msrMpam1El1 31).sysReg = .mpam1El1 := by
  decide

theorem witness_UndefinedEntrySavesAndVectors :
    (k0At .el0).cfg.onException = .enter ∧ (inDebug false (k0At .el0)).inp.halted = true ∧
    (k0At .el0).inp.halted = false ∧ (k0At .el0).pstate.el = .el0 ∧
    (k0At .el2).inp.halted = false ∧ (k0At .el2).pstate.el ≠ .el0 := by
  decide

/-- A trap, an Undefined in and out of Debug state, and a trap in Debug state. -/
theorem witness_TrapsArePrecise :
    ((∃ s', exec (.mrsMpam1El1 0) (trap1 (k0At .el1)) = .next s' ∧
        decide (s'.exc2.elr = 0x1000#64) = true) ∧
      listedTrapEL2 (.mrsMpam1El1 0) (trap1 (k0At .el1)) = true) ∧
    (∃ s', exec (.mrsMpam3El3 0) (inDebug true (k0At .el2)) = .next s' ∧ s'.debugError = true) ∧
    listedUndefined (.mrsMpam3El3 0) (inDebug true (k0At .el2)) = true ∧
    (∃ s', exec (.mrsMpam3El3 0) (k0At .el2) = .next s' ∧ decide (s'.exc2.elr = 0x1000#64) = true) ∧
    listedUndefined (.mrsMpam3El3 0) (k0At .el2) = true ∧
    ((∃ s', exec (.mrsMpam2El2 0) (inDebug false (trapping (k0At .el2))) = .next s' ∧
        decide (s'.exc3.elr = 0x1000#64 ∧ s'.pstate.el = .el3) = true) ∧
      listedTrapEL3 (.mrsMpam2El2 0) (inDebug false (trapping (k0At .el2))) = true ∧
      ¬((inDebug false (trapping (k0At .el2))).inp.halted = true ∧
        listedUndefined (.mrsMpam2El2 0) (inDebug false (trapping (k0At .el2))) = true)) :=
  ⟨⟨nextIs_elim (by decide), by decide⟩, nextIs_elim (by decide), by decide,
    nextIs_elim (by decide), by decide, nextIs_elim (by decide), by decide⟩

/-- From a lower level, from the same level, and at the highest pc. -/
theorem witness_ReturnUndoesEntry :
    ((k0At .el0).admitted = true ∧ (k0At .el0).pc.toNat % 4 = 0 ∧
      (k0At .el0).pstate.el.toNat ≤ HandlerEL.el1.toEL.toNat ∧ roomForNext (k0At .el0) = true) ∧
    (k0At .el3).pstate.el.toNat ≤ HandlerEL.el3.toEL.toNat ∧
    (let s : State := { k0At .el2 with pc := 0xFFFFFFFFFFFFFFF8#64 }
     s.admitted = true ∧ s.pc.toNat % 4 = 0 ∧ textOverlapsNVMem s = false ∧
       (true = true → roomForNext s = true)) ∧
    (atTop (k0At .el2)).admitted = true ∧ (atTop (k0At .el2)).pc.toNat % 4 = 0 ∧
    (false = true → roomForNext (atTop (k0At .el2)) = true) := by
  decide

/-- With every PARTID and PMG at its maximum; synchronised by the model and by empty lists. -/
theorem witness_ReadMpam2ShowsTheBitGroups :
    (let s : State := { k0At .el3 with
        m2 := ⟨0xF#4, true, true, 0xFF#8, true, true, 0xFF#8, 0xFF#8, 0xFFFF#16, 0xFFFF#16⟩ }
     s.synced = true ∧ idsInRange s) ∧
    (writeMPAM2 .mpam2 0#64 { k0At .el3 with
        cfg := { Config.titled with syncModel := .immediate } }).synced = true := by
  unfold idsInRange
  decide

theorem witness_Mpam2ReadsBackWhatWasWritten :
    (k0At .el3).cfg.partidMax = 0xFFFF#16 ∧ (k0At .el3).cfg.pmgMax = 0xFF#8 ∧
    (k0At .el3).synced = true ∧ (noEL3 (k0At .el2)).cfg.haveEL3 = false := by
  decide

theorem witness_Mpam2EnableIsReadOnlyUnderEL3 :
    (∃ s', exec (.msrMpam2El2 0) (writeX (k0At .el3) 0 0x8000000000000000#64) = .next s' ∧
      decide (s'.pc = 0x1004#64) = true) ∧
    (∃ s', exec (.msrMpam1El1 0) (e2hOn (writeX (k0At .el2) 0 0x8000000000000000#64)) = .next s' ∧
      decide (s'.pc = 0x1004#64) = true) ∧
    (k0At .el2).cfg.haveEL3 = true ∧ (k0At .el2).synced = true ∧
    (noEL3 (e2hOn (k0At .el2))).cfg.haveEL3 = false ∧
    (noEL3 (e2hOn (k0At .el2))).cfg.featMPAM = true ∧
    roomForNext (noEL3 (e2hOn (k0At .el2))) = true ∧ e2h (noEL3 (e2hOn (k0At .el2))) = true :=
  ⟨nextIs_elim (by decide), nextIs_elim (by decide), by decide⟩

theorem witness_ThreeViewsShareOneEnable :
    ({ k0At .el3 with mpamen := true } : State).synced = true := by decide

theorem witness_OnlyItsOwnerChangesTheEnable :
    (∃ s', exec (.msrMpam3El3 0) (writeX (k0At .el3) 0 0x8000000000000000#64) = .next s' ∧
      s'.mpamen = true) ∧
    (∃ s', exec (.msrMpam1El1 0) (noEL3 (e2hOn (writeX (k0At .el2) 0 0x8000000000000000#64))) =
        .next s' ∧ s'.mpamen = true) ∧
    (k0At .el3).mpamen = false :=
  ⟨nextIs_elim (by decide), nextIs_elim (by decide), by decide⟩

theorem witness_OnlyEL3ChangesMpam3 :
    ∃ s', exec (.msrMpam3El3 0) (writeX (k0At .el3) 0 0x4000000000000000#64) = .next s' ∧
      (s'.traplower && decide (s'.mpam3Rest ≠ (k0At .el3).mpam3Rest)) = true :=
  nextIs_elim (by decide)

/-- The layout of GK3, at the lowest and the highest bit that is no other field. -/
theorem witness_Mpam3ReadsBackWhatWasWritten :
    ({ Config.titled with mpam3Layout := some Layout.gk3 } : Config).mpam3Layout =
      some Layout.gk3 ∧ 0 < 63 ∧ 0 ≠ Config.titled.traplowerBit.val ∧ 61 < 63 ∧
    61 ≠ Config.titled.traplowerBit.val := by
  decide

theorem witness_RepeatedReadsAgree :
    (k0At .el2).synced = true ∧ idsInRange (k0At .el2) ∧
    verdict (.mrsMpam2El2 0) (k0At .el2) = .access .mpam2 ∧
    (∃ s₁, exec (.mrsMpam2El2 0) (k0At .el2) = .next s₁ ∧
      nextIs (exec (.mrsMpam2El2 30) s₁) (fun s₂ => decide (s₂.pc = 0x1008#64)) = true) :=
  ⟨by decide, by unfold idsInRange; decide, by decide, nextIs_elim (by decide)⟩

theorem witness_HardwiredRes0BitsHaveNoEffect : (k0At .el3).cfg.res0Mode = .hardwired := by decide

theorem witness_LabelsFollowTheEnable :
    ((k0At .el2).synced = true ∧ (k0At .el2).mpamen = false) ∧
    (({ k0At .el2 with mpamen := true } : State).synced = true) := by
  decide

theorem witness_NvWriteStoresTheRegister :
    verdict (.msrMpam1El1 6) (nested (k0At .el1)) = .access .nvMem ∧
    roomForNext (nested (k0At .el1)) = true := by
  decide

theorem witness_NvReadReturnsTheLastWrite :
    (let s : State := { nested (k0At .el1) with cfg := { Config.titled with nvReadModel := .flat } }
     verdict (.msrMpam1El1 6) s = .access .nvMem ∧
     ∃ s₁, exec (.msrMpam1El1 6) s = .next s₁ ∧
       nextIs (exec (.mrsMpam1El1 30) s₁) (fun s₂ => decide (s₂.pc = 0x1008#64)) = true) :=
  ⟨by decide, nextIs_elim (by decide)⟩

/-- Off the NVMem path, and on it by a read and by a write. -/
theorem witness_OnlyMpam1ReachesMemory :
    ((∃ s', exec (.msrMpam1El1 6) (k0At .el1) = .next s' ∧ decide (s'.pc = 0x1004#64) = true) ∧
      verdict (.msrMpam1El1 6) (k0At .el1) ≠ .access .nvMem) ∧
    ((∃ s', exec (.mrsMpam1El1 6) (nested (k0At .el1)) = .next s' ∧
        decide (s'.pc = 0x1004#64) = true) ∧
      verdict (.mrsMpam1El1 6) (nested (k0At .el1)) = .access .nvMem) ∧
    ∃ s', exec (.msrMpam1El1 6) (nested (k0At .el1)) = .next s' ∧
      decide (s'.pc = 0x1004#64) = true :=
  ⟨⟨nextIs_elim (by decide), by decide⟩, ⟨nextIs_elim (by decide), by decide⟩,
    nextIs_elim (by decide)⟩

theorem witness_ResetGivesTheStatedValues :
    ({ Config.titled with haveEL3 := false, resetEL := .el1 } : Config).haveEL3 = false := by decide

/-- To EL3, to EL2 and without EL3 to EL1. -/
theorem witness_WarmResetEventGivesTheStatedValues :
    (let s : State := { k0At .el0 with events := [.warmReset] }
     s.events = .warmReset :: [] ∧ s.admitted = true ∧ textOverlapsNVMem s = false ∧
       s.cfg.resetEL = .el3 ∧
       s.cfg.haveEL3 = true) ∧
    (let s : State := { k0At .el2 with cfg := { Config.titled with resetEL := .el2 } }
     s.admitted = true ∧ s.cfg.resetEL = .el2 ∧ s.inp.el2Enabled = true) ∧
    (let s : State := { k0At .el1 with
        cfg := { Config.titled with haveEL3 := false, resetEL := .el1 } }
     s.admitted = true ∧ s.cfg.haveEL3 = false) := by
  decide

theorem witness_FirstEL1AccessAfterResetTraps :
    (let c : Config := { Config.titled with haveEL3 := false, resetEL := .el1 }
     c.featMPAM = true ∧ c.haveEL3 = false ∧ c.resetEL = .el1) ∧
    (k0At .el1).inp.el2Enabled = true ∧ (Instr.mrsMpam1El1 0).sysReg = .mpam1El1 := by
  decide

/-- A read that is performed and one that traps. -/
theorem witness_MrsFrame :
    ((Instr.mrsMpam2El2 5).isRead = true ∧ verdict (.mrsMpam2El2 5) (k0At .el2) = .access .mpam2 ∧
      ∃ s', exec (.mrsMpam2El2 5) (k0At .el2) = .next s' ∧ decide (s'.pc = 0x1004#64) = true) ∧
    ∃ s', exec (.mrsMpam1El1 5) (trap1 (k0At .el1)) = .next s' ∧
      decide (s'.pstate.el = .el2) = true :=
  ⟨⟨by decide, by decide, nextIs_elim (by decide)⟩, nextIs_elim (by decide)⟩

/-- A write of each register, and one to memory. -/
theorem witness_MsrFrame :
    (Instr.msrMpam2El2 5).isRead = false ∧
    (∃ s', exec (.msrMpam2El2 5) (k0At .el2) = .next s' ∧ decide (s'.pc = 0x1004#64) = true) ∧
    (∃ s', exec (.msrMpam1El1 5) (k0At .el1) = .next s' ∧ decide (s'.pc = 0x1004#64) = true) ∧
    (∃ s', exec (.msrMpam3El3 5) (k0At .el3) = .next s' ∧ decide (s'.pc = 0x1004#64) = true) ∧
    ∃ s', exec (.msrMpam1El1 5) (nested (k0At .el1)) = .next s' ∧
      decide (s'.pc = 0x1004#64) = true :=
  ⟨by decide, nextIs_elim (by decide), nextIs_elim (by decide), nextIs_elim (by decide),
    nextIs_elim (by decide)⟩

theorem witness_XzrDiscardsAndWritesZero :
    ((Instr.mrsMpam2El2 31).rt = 31 ∧ (Instr.mrsMpam2El2 31).isRead = true ∧
      ∃ s', exec (.mrsMpam2El2 31) (k0At .el2) = .next s' ∧ decide (s'.pc = 0x1004#64) = true) ∧
    ((Instr.msrMpam1El1 31).rt = 31 ∧ (Instr.msrMpam1El1 31).isRead = false ∧
      (∃ s', exec (.msrMpam1El1 31) (k0At .el1) = .next s' ∧ decide (s'.pc = 0x1004#64) = true) ∧
      verdict (.msrMpam1El1 31) (k0At .el1) = .access .mpam1 ∧
      verdict (.msrMpam1El1 31) (e2hOn (k0At .el2)) = .access .mpam2 ∧
      verdict (.msrMpam3El3 31) (k0At .el3) = .access .mpam3 ∧
      verdict (.msrMpam1El1 31) (nested (k0At .el1)) = .access .nvMem) ∧
    (verdict (.mrsMpam2El2 0) (k0At .el1) = .undefined ∧
      verdict (.mrsMpam2El2 0) (nested (k0At .el1)) = .trap .el2 ∧
      roomForNext (k0At .el2) = true ∧ roomForNext (atTop (k0At .el2)) = false) :=
  ⟨⟨by decide, by decide, nextIs_elim (by decide)⟩,
    ⟨by decide, by decide, nextIs_elim (by decide), by decide, by decide, by decide, by decide⟩,
    by decide⟩

end Sys2Proof.Tests
end

section
/-! What no step writes and what every step advances (00_scope.md R5, R6, R16). Each next state is a
ticked one, so both statements are read off one frame lemma per kind of step. -/

namespace Sys2Proof.Machine

/-! ### What an instruction keeps of the given -/

/-- Taking an Undefined exception writes neither the given fields nor the draw counter, in Debug state or
out of it. -/
theorem takeUndefined_keeps_given_and_draws (s : State) :
    sameGiven s (takeUndefined s) ∧ (takeUndefined s).draws = s.draws := by
  rcases takeUndefined_cases s with ⟨-, hu⟩ | ⟨-, hu⟩ <;> rw [hu] <;> simp [sameGiven]

/-- `performed_completes` for the draw counter: what a performed access completes has drawn nothing. -/
theorem performed_completes_same_draws (i : Instr) (r : Reach) (s : State) :
    ∃ u : State, performed i r s = complete u ∧ sameGiven s u ∧ u.draws = s.draws := by
  cases i <;> cases r <;> exact ⟨_, rfl, by simp [sameGiven]⟩

/-- Whether it enters an exception or performs its access, an instruction keeps the given fields and
moves on to the next draws. -/
theorem exec_next_keeps_given_and_ticks {i : Instr} {s s' : State} (h : exec i s = .next s') :
    sameGiven s s' ∧ s'.draws = s.draws + 1 := by
  obtain ⟨-, -, rfl⟩ | ⟨k, -, -, rfl⟩ | ⟨r, -, hr⟩ := exec_next h
  · simpa [sameGiven] using takeUndefined_keeps_given_and_draws s
  · simp [sameGiven]
  · obtain ⟨u, hu, hgiven, hdraws⟩ := performed_completes_same_draws i r s
    obtain ⟨-, rfl⟩ := complete_next (hu ▸ hr)
    exact ⟨hgiven, congrArg (· + 1) hdraws⟩

/-! ### What an event and a step keep -/

/-- An event of the environment keeps the parameters and the program text and moves on to the next
draws. It may write the inputs. -/
theorem runEvent_next_keeps_cfg_text_and_ticks {e : EnvEvent} {s s' : State}
    (h : runEvent e s = .next s') :
    s'.cfg = s.cfg ∧ s'.text = s.text ∧ s'.draws = s.draws + 1 := by
  obtain ⟨-, -, -, rfl⟩ | ⟨-, rfl⟩ | ⟨adv, -, hret⟩ | ⟨inp, -, -, -, rfl⟩ := runEvent_next h
  · exact ⟨rfl, rfl, rfl⟩
  · exact ⟨rfl, rfl, rfl⟩
  · obtain ⟨k, -, rfl, -⟩ := exceptionReturn_next hret
    simp
  · exact ⟨rfl, rfl, rfl⟩

/-- A step, by an event or by an instruction, keeps the parameters and the program text and moves on to
the next draws. -/
theorem step_next_keeps_cfg_text_and_ticks {s s' : State} (h : step s = .next s') :
    s'.cfg = s.cfg ∧ s'.text = s.text ∧ s'.draws = s.draws + 1 := by
  obtain ⟨-, -, ⟨e, rest, -, hevent⟩ | ⟨-, i, -, hexec⟩⟩ := step_next h
  · exact (runEvent_next_keeps_cfg_text_and_ticks hevent :)
  · obtain ⟨⟨hcfg, -, htext, -⟩, hdraws⟩ := exec_next_keeps_given_and_ticks hexec
    exact ⟨hcfg, htext, hdraws⟩

/-! ### The obligations -/

/-- Settles O10: the first part is the frame of a step, the second the frame of an instruction. -/
theorem givensAreNeverWritten : Obligations.GivensAreNeverWritten := by
  refine ⟨fun s s' h => ?_, fun i s s' h => (exec_next_keeps_given_and_ticks h).1⟩
  obtain ⟨hcfg, htext, -⟩ := step_next_keeps_cfg_text_and_ticks h
  exact ⟨hcfg, htext⟩

/-- Settles O57: every kind of step ends in a tick. -/
theorem everyStepDrawsAnew : Obligations.EveryStepDrawsAnew := by
  intro s s' h
  obtain ⟨-, -, hdraws⟩ := step_next_keeps_cfg_text_and_ticks h
  exact hdraws

end Sys2Proof.Machine
end

section
/-! What the verdict decides (60_exceptions.md R140 to R149): which accesses trap where, where TRAPLOWER
shuts an access out, and that an instruction that reaches nothing moves nothing. -/

namespace Sys2Proof.Machine

/-! ### The decision tables -/

theorem tableMpam1_trap_iff (e : EL) (T3 SD T2 NV2 E2H : Bool) (k : HandlerEL) :
    tableMpam1 e T3 SD T2 NV2 E2H = .trap k ↔
      (k = .el3 ∧ (e = .el1 ∨ e = .el2) ∧ T3 = true ∧ SD = false) ∨
        (k = .el2 ∧ e = .el1 ∧ T3 = false ∧ T2 = true) := by
  revert T3 SD T2 NV2 E2H
  cases e <;> cases k <;> decide

theorem tableMpam2_trap_iff (e : EL) (NV T3 SD : Bool) (k : HandlerEL) :
    tableMpam2 e NV T3 SD = .trap k ↔
      (k = .el3 ∧ (e = .el1 ∧ NV = true ∨ e = .el2) ∧ T3 = true ∧ SD = false) ∨
        (k = .el2 ∧ e = .el1 ∧ NV = true ∧ T3 = false) := by
  revert NV T3 SD
  cases e <;> cases k <;> decide

theorem tableMpam1_ne_access_of_t3 (e : EL) (SD T2 NV2 E2H : Bool) (r : Reach) (he : e ≠ .el3) :
    tableMpam1 e true SD T2 NV2 E2H ≠ .access r := by
  cases e <;> cases SD <;> simp_all [tableMpam1]

theorem tableMpam2_ne_access_of_t3 (e : EL) (NV SD : Bool) (r : Reach) (he : e ≠ .el3) :
    tableMpam2 e NV true SD ≠ .access r := by
  cases e <;> cases NV <;> cases SD <;> simp_all [tableMpam2]

/-! ### The verdict -/

theorem verdict_mpam1 {i : Instr} {s : State} (hi : i.sysReg = .mpam1El1)
    (hf : s.cfg.featMPAM = true) :
    verdict i s = tableMpam1 s.pstate.el (t3 s) (sd s) (t2 s) (nv2m s) (e2h s) := by
  simp [verdict, hi, hf]

theorem verdict_mpam2 {i : Instr} {s : State} (hi : i.sysReg = .mpam2El2)
    (hf : s.cfg.featMPAM = true) :
    verdict i s = tableMpam2 s.pstate.el (nvt s) (t3 s) (sd s) := by
  simp [verdict, hi, hf]

theorem verdict_mpam3 {i : Instr} {s : State} (hi : i.sysReg = .mpam3El3)
    (hf : s.cfg.featMPAM = true) :
    verdict i s =
      if s.cfg.haveEL3 = true ∧ s.pstate.el = .el3 then .access .mpam3 else .undefined := by
  cases h3 : s.cfg.haveEL3 <;> cases hel : s.pstate.el <;> simp [verdict, hi, hf, h3, hel]

theorem verdict_of_not_featMPAM (i : Instr) {s : State} (hf : s.cfg.featMPAM = false) :
    verdict i s = .undefined := by
  simp [verdict, hf]

theorem listedTrapEL3_iff (i : Instr) (s : State) :
    listedTrapEL3 i s = true ↔
      s.cfg.featMPAM = true ∧ t3 s = true ∧ sd s = false ∧ trapLowerCase i s = true := by
  simp only [listedTrapEL3, t3, sd, Bool.and_eq_true, Bool.not_eq_true', and_assoc]

theorem listedTrapEL2_mpam1_iff {i : Instr} (s : State) (hi : i.sysReg = .mpam1El1) :
    listedTrapEL2 i s = true ↔
      s.cfg.featMPAM = true ∧ s.pstate.el = .el1 ∧ t3 s = false ∧ t2 s = true := by
  cases hel : s.pstate.el <;>
    simp only [listedTrapEL2, hi, hel, t3, t2, Bool.and_eq_true, Bool.not_eq_true', and_false,
      false_and, true_and, Bool.false_eq_true, reduceCtorEq]

theorem listedTrapEL2_mpam2_iff {i : Instr} (s : State) (hi : i.sysReg = .mpam2El2) :
    listedTrapEL2 i s = true ↔
      s.cfg.featMPAM = true ∧ s.pstate.el = .el1 ∧ nvt s = true ∧ t3 s = false := by
  cases hel : s.pstate.el <;>
    simp only [listedTrapEL2, hi, hel, t3, nvt, Bool.and_eq_true, Bool.not_eq_true', and_false,
      false_and, true_and, Bool.false_eq_true, reduceCtorEq]

theorem listedTrapEL2_mpam3 {i : Instr} (s : State) (hi : i.sysReg = .mpam3El3) :
    listedTrapEL2 i s = false := by
  simp [listedTrapEL2, hi]

/-- The verdict's traps are the two lists R142 and R143, each with its own target. -/
theorem verdict_trap_iff (i : Instr) (s : State) (k : HandlerEL) :
    verdict i s = .trap k ↔
      (k = .el3 ∧ listedTrapEL3 i s = true) ∨ (k = .el2 ∧ listedTrapEL2 i s = true) := by
  cases hf : s.cfg.featMPAM
  · simp [verdict_of_not_featMPAM i hf, listedTrapEL3, listedTrapEL2, hf]
  · cases hi : i.sysReg
    case mpam1El1 =>
      rw [verdict_mpam1 hi hf, tableMpam1_trap_iff, listedTrapEL3_iff,
        listedTrapEL2_mpam1_iff s hi]
      cases hel : s.pstate.el <;> simp [trapLowerCase, hf, hi, hel]
    case mpam2El2 =>
      rw [verdict_mpam2 hi hf, tableMpam2_trap_iff, listedTrapEL3_iff,
        listedTrapEL2_mpam2_iff s hi]
      cases hel : s.pstate.el <;>
        simp [trapLowerCase, hf, hi, hel, nvt, and_comm, and_left_comm, and_assoc]
    case mpam3El3 =>
      rw [verdict_mpam3 hi hf, listedTrapEL3_iff, listedTrapEL2_mpam3 s hi]
      split <;> simp [trapLowerCase, hi]

/-- Below EL3, TRAPLOWER shuts every access out. -/
theorem verdict_ne_access_of_t3 {i : Instr} {s : State} (h3 : t3 s = true)
    (hel : s.pstate.el ≠ .el3) (r : Reach) : verdict i s ≠ .access r := by
  cases hf : s.cfg.featMPAM
  · simp [verdict_of_not_featMPAM i hf]
  · cases hi : i.sysReg
    case mpam1El1 => rw [verdict_mpam1 hi hf, h3]; exact tableMpam1_ne_access_of_t3 _ _ _ _ _ r hel
    case mpam2El2 => rw [verdict_mpam2 hi hf, h3]; exact tableMpam2_ne_access_of_t3 _ _ _ r hel
    case mpam3El3 => simp [verdict_mpam3 hi hf, hel]

/-! ### The three ways of an instruction -/

theorem exec_of_undefined {i : Instr} {s : State} (hv : verdict i s = .undefined) :
    exec i s = raise i .undefined s := by rw [exec_verdict, hv]

theorem exec_of_trap {i : Instr} {s : State} {k : HandlerEL} (hv : verdict i s = .trap k) :
    exec i s = raise i (.systemAccessTrap k) s := by rw [exec_verdict, hv]

theorem exec_of_access {i : Instr} {s : State} {r : Reach} (hv : verdict i s = .access r) :
    exec i s = performed i r s := by rw [exec_verdict, hv]

/-- An exception's entry writes no general register, no MPAM register and no data memory (R149). -/
theorem movesNothing_raise (i : Instr) (e : Exc) (s : State) : movesNothing s (raise i e s) := by
  intro s' h
  obtain ⟨-, ⟨-, rfl⟩ | ⟨k, -, rfl⟩⟩ := raise_next h
  · obtain ⟨-, hu⟩ | ⟨-, hu⟩ := takeUndefined_cases s <;> simp [hu, sameMpam]
  · simp [sameMpam]

theorem movesNothing_exec_of_no_access {i : Instr} {s : State}
    (hv : ∀ r, verdict i s ≠ .access r) : movesNothing s (exec i s) := by
  cases h : verdict i s with
  | undefined => rw [exec_of_undefined h]; exact movesNothing_raise _ _ _
  | trap k => rw [exec_of_trap h]; exact movesNothing_raise _ _ _
  | access r => exact absurd h (hv r)

/-- Where exceptions stop the run, the trap faults are the verdict's traps. -/
theorem exec_eq_trap_fault_iff {i : Instr} {s : State} {k : HandlerEL}
    (hs : s.cfg.onException = .stop) :
    exec i s = .fault (.systemAccessTrap i k trapCode) ↔ verdict i s = .trap k := by
  cases hv : verdict i s with
  | undefined => simp [exec_of_undefined hv, raise, hs]
  | trap k' => simp [exec_of_trap hv, raise, hs]
  | access r => simp [exec_of_access hv, performed_ne_fault]

/-- A trap fault comes of a trap verdict, whatever the exception model and the code. -/
theorem verdict_of_exec_trap_fault {i j : Instr} {s : State} {k : HandlerEL} {c : BitVec 6}
    (h : exec i s = .fault (.systemAccessTrap j k c)) : verdict i s = .trap k := by
  cases hv : verdict i s with
  | undefined =>
    rw [exec_of_undefined hv] at h
    cases hs : s.cfg.onException <;> simp [raise, hs] at h
  | trap k' =>
    rw [exec_of_trap hv] at h
    cases hs : s.cfg.onException <;> simp_all [raise]
  | access r => exact absurd (exec_of_access hv ▸ h) (performed_ne_fault i r s _)

/-! ### The obligations -/

/-- Settles O20: the verdict's traps to EL3 are R142's list. -/
theorem trapsToEL3AreTheListed : Obligations.TrapsToEL3AreTheListed := by
  intro i s
  have hlist : verdict i s = .trap .el3 ↔ listedTrapEL3 i s = true := by
    simp [verdict_trap_iff]
  exact ⟨fun h => exec_of_trap (hlist.mpr h), fun hs => (exec_eq_trap_fault_iff hs).trans hlist⟩

/-- Settles O21: the verdict's traps to EL2 are R143's list. -/
theorem trapsToEL2AreTheListed : Obligations.TrapsToEL2AreTheListed := by
  intro i s
  have hlist : verdict i s = .trap .el2 ↔ listedTrapEL2 i s = true := by
    simp [verdict_trap_iff]
  exact ⟨fun h => exec_of_trap (hlist.mpr h), fun hs => (exec_eq_trap_fault_iff hs).trans hlist⟩

/-- Settles O25: TRAPLOWER leaves no access below EL3, and what is no access moves nothing. -/
theorem traplowerShutsOutLowerLevels : Obligations.TraplowerShutsOutLowerLevels := by
  intro i s s' h3 hel h
  have hne : s.pstate.el ≠ .el3 := by rcases hel with hel | hel <;> simp [hel]
  exact movesNothing_exec_of_no_access (verdict_ne_access_of_t3 h3 hne) s' h

/-- Settles O27: each control has EL2Enabled() as a factor, and so has every row of R143's list. -/
theorem disabledEL2TrapsNothing : Obligations.DisabledEL2TrapsNothing := by
  intro i s h
  have hlist : listedTrapEL2 i s = false := by
    cases hi : i.sysReg <;> cases hel : s.pstate.el <;> simp [listedTrapEL2, hi, hel, h]
  have hv : verdict i s ≠ .trap .el2 := by simp [verdict_trap_iff, hlist]
  exact ⟨by simp [t2, h], by simp [tidrActs, h], by simp [trapMpam0Acts, h], hv,
    fun c hc => hv (verdict_of_exec_trap_fault hc)⟩

end Sys2Proof.Machine
end

section
/-! What a performed access does, said once: an `MRS` writes its general register, an `MSR` writes the
register or memory it reaches. The frames, the owners of each field and what XZR does are read off it. -/

namespace Sys2Proof.Machine

/-! ### The two kinds of access -/

/-- The state after `w` is written to what an `MSR` reaches, before the pc moves on. -/
def written (r : Reach) (v : View) (w : Word) (s : State) : State :=
  match r with
  | .mpam1 => writeMPAM1 w s
  | .mpam2 => writeMPAM2 v w s
  | .mpam3 => writeMPAM3 w s
  | .nvMem => { s with mem := nvStore s w, nvLog := .write (nvAddr s).toNat w :: s.nvLog }

/-- A performed `MSR` writes X[t] to what it reaches, through some path. -/
theorem exec_msr_of_access {i : Instr} {r : Reach} {s : State} (hi : i.isRead = false)
    (hv : verdict i s = .access r) :
    ∃ v, exec i s = complete (written r v (readX s i.rt) s) := by
  rw [exec_of_access hv]
  have hreach := verdict_access_reach hv
  cases i with
  | mrsMpam2El2 t => cases hi
  | mrsMpam1El1 t => cases hi
  | mrsMpam3El3 t => cases hi
  | msrMpam2El2 t =>
    obtain rfl : r = .mpam2 := by simpa [Instr.sysReg] using hreach
    exact ⟨.mpam2, rfl⟩
  | msrMpam1El1 t =>
    cases r with
    | mpam1 => exact ⟨.mpam1, rfl⟩
    | mpam2 => exact ⟨.mpam2ViaMpam1, rfl⟩
    | nvMem => exact ⟨.mpam1, rfl⟩
    | mpam3 => simp [Instr.sysReg] at hreach
  | msrMpam3El3 t =>
    obtain ⟨rfl, -⟩ : r = .mpam3 ∧ _ := by simpa [Instr.sysReg] using hreach
    exact ⟨.mpam3, rfl⟩

/-- A performed `MRS` writes X[t], and records an event where it reads memory. -/
theorem exec_mrs_of_access {i : Instr} {r : Reach} {s : State} (hi : i.isRead = true)
    (hv : verdict i s = .access r) :
    ∃ val log, exec i s = complete (writeX { s with nvLog := log } i.rt val) ∧
      (r ≠ .nvMem → log = s.nvLog) := by
  rw [exec_of_access hv]
  cases i with
  | msrMpam2El2 t => cases hi
  | msrMpam1El1 t => cases hi
  | msrMpam3El3 t => cases hi
  | mrsMpam2El2 t => exact ⟨readMPAM2 .mpam2 s, s.nvLog, rfl, fun _ => rfl⟩
  | mrsMpam1El1 t =>
    cases r with
    | mpam1 => exact ⟨readMPAM1 s, s.nvLog, rfl, fun _ => rfl⟩
    | mpam2 => exact ⟨readMPAM2 .mpam2ViaMpam1 s, s.nvLog, rfl, fun _ => rfl⟩
    | mpam3 => exact ⟨readMPAM1 s, s.nvLog, rfl, fun _ => rfl⟩
    | nvMem => exact ⟨nvValue s, _, rfl, fun h => absurd rfl h⟩
  | mrsMpam3El3 t => exact ⟨readMPAM3 s, s.nvLog, rfl, fun _ => rfl⟩

/-! ### What a write leaves of each field -/

@[simp] theorem written_pc (r : Reach) (v : View) (w : Word) (s : State) :
    (written r v w s).pc = s.pc := by cases r <;> simp [written]

@[simp] theorem written_x (r : Reach) (v : View) (w : Word) (s : State) :
    (written r v w s).x = s.x := by cases r <;> simp [written]

theorem sameGiven_written (r : Reach) (v : View) (w : Word) (s : State) :
    sameGiven s (written r v w s) := by cases r <;> simp [written, sameGiven]

theorem sameExc_written (r : Reach) (v : View) (w : Word) (s : State) :
    sameExc s (written r v w s) := by cases r <;> simp [written, sameExc]

@[simp] theorem written_mpam1Rest (r : Reach) (v : View) (w : Word) (s : State) :
    (written r v w s).mpam1Rest = if r = .mpam1 then w else s.mpam1Rest := by
  cases r <;> simp [written]

@[simp] theorem written_m2 (r : Reach) (v : View) (w : Word) (s : State) :
    (written r v w s).m2 = if r = .mpam2 then m2Written s.cfg w s.m2 else s.m2 := by
  cases r <;> simp [written]

@[simp] theorem written_traplower (r : Reach) (v : View) (w : Word) (s : State) :
    (written r v w s).traplower =
      if r = .mpam3 then w.getLsbD s.cfg.traplowerBit.val else s.traplower := by
  cases r <;> simp [written]

@[simp] theorem written_mpam3Rest (r : Reach) (v : View) (w : Word) (s : State) :
    (written r v w s).mpam3Rest = if r = .mpam3 then w else s.mpam3Rest := by
  cases r <;> simp [written]

/-- MPAMEN is written with MPAM3_EL3, and with MPAM2_EL2 where EL3 is not implemented (R22, R29). -/
@[simp] theorem written_mpamen (r : Reach) (v : View) (w : Word) (s : State) :
    (written r v w s).mpamen =
      if r = .mpam3 ∨ (r = .mpam2 ∧ s.cfg.haveEL3 = false) then w.getLsbD 63 else s.mpamen := by
  cases r <;> cases h3 : s.cfg.haveEL3 <;> simp [written, h3]

@[simp] theorem written_mem (r : Reach) (v : View) (w : Word) (s : State) :
    (written r v w s).mem = if r = .nvMem then nvStore s w else s.mem := by
  cases r <;> simp [written]

/-! ### The next state of a performed access -/

theorem exec_msr_next {i : Instr} {r : Reach} {s s' : State} (hi : i.isRead = false)
    (hv : verdict i s = .access r) (h : exec i s = .next s') :
    ∃ v, s' = tick { written r v (readX s i.rt) s with pc := s.pc + 4#64 } := by
  obtain ⟨v, hv'⟩ := exec_msr_of_access hi hv
  obtain ⟨-, rfl⟩ := complete_next (hv' ▸ h)
  exact ⟨v, by rw [written_pc]⟩

theorem exec_mrs_next {i : Instr} {r : Reach} {s s' : State} (hi : i.isRead = true)
    (hv : verdict i s = .access r) (h : exec i s = .next s') :
    ∃ val log, s' = tick { writeX { s with nvLog := log } i.rt val with pc := s.pc + 4#64 } ∧
      (r ≠ .nvMem → log = s.nvLog) := by
  obtain ⟨val, log, he, hlog⟩ := exec_mrs_of_access hi hv
  obtain ⟨-, rfl⟩ := complete_next (he ▸ h)
  exact ⟨val, log, by rw [writeX_pc], hlog⟩

/-- An `MSR` that answers a next state wrote what its verdict reaches, or reached nothing and moved
nothing. -/
theorem exec_msr_next_cases {i : Instr} {s s' : State} (hi : i.isRead = false)
    (h : exec i s = .next s') :
    (∃ r v, verdict i s = .access r ∧
        s' = tick { written r v (readX s i.rt) s with pc := s.pc + 4#64 }) ∨
      ((∀ r, verdict i s ≠ .access r) ∧ s'.x = s.x ∧ sameMpam s s' ∧ s'.mem = s.mem) := by
  by_cases hv : ∃ r, verdict i s = .access r
  · obtain ⟨r, hv⟩ := hv
    obtain ⟨v, hs⟩ := exec_msr_next hi hv h
    exact .inl ⟨r, v, hv, hs⟩
  · have hno := not_exists.mp hv
    obtain ⟨hx, hmpam, hmem, -⟩ := movesNothing_exec_of_no_access hno s' h
    exact .inr ⟨hno, hx, hmpam, hmem⟩

/-- An `MRS` writes no MPAM register and no data memory, whatever its verdict. -/
theorem exec_mrs_keeps_mpam_and_mem {i : Instr} {s s' : State} (hi : i.isRead = true)
    (h : exec i s = .next s') : sameMpam s s' ∧ s'.mem = s.mem := by
  by_cases hv : ∃ r, verdict i s = .access r
  · obtain ⟨r, hv⟩ := hv
    obtain ⟨val, log, rfl, -⟩ := exec_mrs_next hi hv h
    simp [sameMpam]
  · obtain ⟨-, hmpam, hmem, -⟩ := movesNothing_exec_of_no_access (not_exists.mp hv) s' h
    exact ⟨hmpam, hmem⟩

/-- MPAM3_EL3 is reached through its own encoding, at EL3, where it is present. -/
theorem verdict_access_mpam3 {i : Instr} {s : State} (hv : verdict i s = .access .mpam3) :
    i.sysReg = .mpam3El3 ∧ s.pstate.el = .el3 ∧ s.cfg.haveEL3 = true ∧ s.cfg.featMPAM = true := by
  simpa using verdict_access_reach hv

/-! ### Data memory -/

theorem read_nvStore_outside (s : State) (w : Word) {a : Nat} (ha : ¬ inNVMem s a) :
    Memory.read (nvStore s w) a = Memory.read s.mem a := by
  apply Memory.read_writeBytes_outside
  rw [dataBytes_length]
  unfold inNVMem at ha
  omega

/-- An instruction leaves data memory alone, or stores X[t] in the eight bytes at NVAddr(0x900). -/
theorem exec_next_mem {i : Instr} {s s' : State} (h : exec i s = .next s') :
    s'.mem = s.mem ∨ (verdict i s = .access .nvMem ∧ s'.mem = nvStore s (readX s i.rt)) := by
  cases hi : i.isRead with
  | true => exact .inl (exec_mrs_keeps_mpam_and_mem hi h).2
  | false =>
    obtain ⟨r, v, hv, rfl⟩ | ⟨-, -, -, hmem⟩ := exec_msr_next_cases hi h
    · by_cases hr : r = .nvMem
      · subst hr; exact .inr ⟨hv, by simp⟩
      · exact .inl (by simp [hr])
    · exact .inl hmem

/-- Where an access is performed, the exception registers, PSTATE and the error flag stay. -/
theorem sameExc_of_access {i : Instr} {r : Reach} {s s' : State} (hv : verdict i s = .access r)
    (h : exec i s = .next s') : sameExc s s' := by
  rw [exec_of_access hv] at h
  obtain ⟨u, hu, -, hexc, -⟩ := performed_completes i r s
  obtain ⟨-, rfl⟩ := complete_next (hu ▸ h)
  exact hexc

/-! ### Completing, or the top of the address space -/

theorem complete_of_room {s u : State} (hpc : u.pc = s.pc) (hroom : roomForNext s = true) :
    complete u = .next (tick { u with pc := s.pc + 4#64 }) := by
  rw [← hpc]
  exact complete_eq_next (by simpa only [hpc, roomForNext, decide_eq_true_eq] using hroom)

theorem exec_of_access_with_room {i : Instr} {r : Reach} {s : State} (hv : verdict i s = .access r)
    (hroom : roomForNext s = true) :
    ∃ s', exec i s = .next s' ∧ s'.pc = s.pc + 4#64 ∧ sameExc s s' := by
  obtain ⟨u, hu, hpc, hexc, -⟩ := performed_completes i r s
  exact ⟨_, (exec_of_access hv).trans (hu.trans (complete_of_room hpc hroom)), rfl, hexc⟩

theorem exec_of_access_at_top {i : Instr} {r : Reach} {s : State} (hv : verdict i s = .access r)
    (hroom : roomForNext s = false) : exec i s = .refused .pcWrap := by
  obtain ⟨u, hu, hpc, -, -⟩ := performed_completes i r s
  rw [exec_of_access hv, hu]
  obtain ⟨hlt, -⟩ | ⟨-, hwrap⟩ := complete_cases u
  · simp [roomForNext, ← hpc] at hroom
    omega
  · exact hwrap

/-- The number of the register is no part of the verdict. -/
theorem verdict_withRt (i : Instr) (t : RegNum) (s : State) :
    verdict (withRt i t) s = verdict i s := by
  cases i <;> rfl

/-! ### The obligations -/

/-- Settles O38: an `MRS` and an instruction that reaches nothing keep MPAMEN, and `written_mpamen` names
the writes that do not. -/
theorem onlyItsOwnerChangesTheEnable : Obligations.OnlyItsOwnerChangesTheEnable := by
  intro i s s' h hne
  cases hi : i.isRead with
  | true => exact absurd (exec_mrs_keeps_mpam_and_mem hi h).1.1 hne
  | false =>
    refine ⟨rfl, ?_⟩
    obtain ⟨r, v, hv, rfl⟩ | ⟨-, -, ⟨hen, -⟩, -⟩ := exec_msr_next_cases hi h
    · by_cases hr : r = .mpam3 ∨ (r = .mpam2 ∧ s.cfg.haveEL3 = false)
      · obtain rfl | ⟨rfl, h3⟩ := hr
        · obtain ⟨hreg, hel, h3, -⟩ := verdict_access_mpam3 hv
          exact .inl ⟨h3, hreg, hel⟩
        · exact .inr ⟨h3, hv⟩
      · simp [hr] at hne
    · exact absurd hen hne

/-- Settles O39: `written_traplower` and `written_mpam3Rest` name the one write, and MPAM3_EL3 is reached at
EL3 alone. -/
theorem onlyEL3ChangesMpam3 : Obligations.OnlyEL3ChangesMpam3 := by
  intro i s s' h hne
  cases hi : i.isRead with
  | true =>
    obtain ⟨⟨-, htl, hrest, -⟩, -⟩ := exec_mrs_keeps_mpam_and_mem hi h
    exact absurd hne (by simp [htl, hrest])
  | false =>
    obtain ⟨r, v, hv, rfl⟩ | ⟨-, -, ⟨-, htl, hrest, -⟩, -⟩ := exec_msr_next_cases hi h
    · by_cases hr : r = .mpam3
      · subst hr
        obtain ⟨hreg, hel, h3, hf⟩ := verdict_access_mpam3 hv
        cases i with
        | msrMpam3El3 t => exact ⟨t, rfl, hel, h3, hf⟩
        | mrsMpam3El3 t => cases hi
        | mrsMpam2El2 t | msrMpam2El2 t | mrsMpam1El1 t | msrMpam1El1 t => cases hreg
      · simp [hr] at hne
    · exact absurd hne (by simp [htl, hrest])

/-- Settles O54: the fields of `written`, or nothing moved. -/
theorem msrFrame : Obligations.MsrFrame := by
  intro i s s' hi h
  obtain ⟨hgiven, -⟩ := exec_next_keeps_given_and_ticks h
  have hexc : ∀ r, verdict i s = .access r → sameExc s s' := fun r hv => sameExc_of_access hv h
  have hbytes : ∀ a, ¬ inNVMem s a → Memory.read s'.mem a = Memory.read s.mem a := by
    intro a ha
    obtain hmem | ⟨-, hmem⟩ := exec_next_mem h
    · rw [hmem]
    · rw [hmem, read_nvStore_outside s _ ha]
  have hoff : verdict i s ≠ .access .nvMem → sameMem s s' := by
    intro hne a
    obtain hmem | ⟨hv, -⟩ := exec_next_mem h
    · rw [hmem]
    · exact absurd hv hne
  obtain ⟨r, v, hv, hs⟩ | ⟨-, hx, ⟨hen, htl, hrest3, hm2, hrest1⟩, -⟩ := exec_msr_next_cases hi h
  · refine ⟨by simp [hs], hgiven, ?_, ?_, ?_, ?_, hoff, hbytes, hexc⟩ <;>
      simp +contextual [hs, hv]
  · exact ⟨hx, hgiven, fun _ => hrest1, fun _ => hm2, fun _ => ⟨htl, hrest3⟩,
      fun _ _ => hen, hoff, hbytes, hexc⟩

/-- Settles O19: every performed access completes, and completing is what is refused there. -/
theorem completingAtTheTopIsRefused : Obligations.CompletingAtTheTopIsRefused :=
  fun _ _ _ hv hroom => exec_of_access_at_top hv hroom

/-- Settles O55: X31 discards and reads 0, and `verdict_withRt` with the three ways of an instruction gives
the outcome for every `Rt`. -/
theorem xzrDiscardsAndWritesZero : Obligations.XzrDiscardsAndWritesZero := by
  refine ⟨fun i s s' hi ht h => ?_, fun i s s' hi ht h => ?_, fun i t s => ?_⟩
  · by_cases hv : ∃ r, verdict i s = .access r
    · obtain ⟨r, hv⟩ := hv
      obtain ⟨val, log, rfl, -⟩ := exec_mrs_next hi hv h
      simp [ht, writeX_xzr]
    · exact (movesNothing_exec_of_no_access (not_exists.mp hv) s' h).1
  · have hzero {r : Reach} (hv : verdict i s = .access r) :
        ∃ v, s' = tick { written r v 0#64 s with pc := s.pc + 4#64 } := by
      simpa only [ht, readX_xzr] using exec_msr_next hi hv h
    refine ⟨fun hv => ?_, fun hv => ?_, fun hv => ?_, fun hv => ?_⟩ <;>
      obtain ⟨v, rfl⟩ := hzero hv <;> simp +contextual
  · have hrt := verdict_withRt i t s
    exact ⟨hrt, fun hv => exec_of_undefined (hrt.trans hv), fun k hv => exec_of_trap (hrt.trans hv),
      fun r hv => ⟨exec_of_access_with_room (hrt.trans hv), exec_of_access_at_top (hrt.trans hv)⟩⟩

end Sys2Proof.Machine
end

section
/-! The registers read and written (10_state.md R24, R27, R42 to R48): the bit groups of a word of
MPAM2_EL2, what a synchronised read shows, and what a read shows of a write through its own path. -/

namespace Sys2Proof.Machine

/-! ### The ten bit groups of MPAM2_EL2 (R27) -/

theorem m2Word_getLsbD (en : Bool) (r62 : BitVec 4) (b58 : Bool) (r57 : BitVec 8) (t0 t1 : Bool)
    (pmgD pmgI : BitVec 8) (partidD partidI : BitVec 16) {n : Nat} (hn : n < 64) :
    (m2Word en r62 b58 r57 t0 t1 pmgD pmgI partidD partidI).getLsbD n =
      if n < 16 then partidI.getLsbD n
      else if n < 32 then partidD.getLsbD (n - 16)
      else if n < 40 then pmgI.getLsbD (n - 32)
      else if n < 48 then pmgD.getLsbD (n - 40)
      else if n = 48 then t1
      else if n = 49 then t0
      else if n < 58 then r57.getLsbD (n - 50)
      else if n = 58 then b58
      else if n < 63 then r62.getLsbD (n - 59)
      else en := by
  simp only [m2Word, BitVec.getLsbD_or, BitVec.getLsbD_shiftLeft, BitVec.getLsbD_setWidth,
    BitVec.getLsbD_ofBool]
  interval_cases n <;> simp

/-- Each bit group of the word is the value it is made of. -/
theorem m2Word_fields (en : Bool) (r62 : BitVec 4) (b58 : Bool) (r57 : BitVec 8) (t0 t1 : Bool)
    (pmgD pmgI : BitVec 8) (partidD partidI : BitVec 16) :
    let r := m2Word en r62 b58 r57 t0 t1 pmgD pmgI partidD partidI
    r.getLsbD 63 = en ∧ r.extractLsb' 59 4 = r62 ∧ r.getLsbD 58 = b58 ∧
      r.extractLsb' 50 8 = r57 ∧ r.getLsbD 49 = t0 ∧ r.getLsbD 48 = t1 ∧
      r.extractLsb' 40 8 = pmgD ∧ r.extractLsb' 32 8 = pmgI ∧
      r.extractLsb' 16 16 = partidD ∧ r.extractLsb' 0 16 = partidI := by
  refine ⟨?en, ?r62, ?b58, ?r57, ?t0, ?t1, ?pmgD, ?pmgI, ?partidD, ?partidI⟩
  case r62 | r57 | pmgD | pmgI | partidD | partidI =>
    apply BitVec.eq_of_getLsbD_eq
    intro n hn
    rw [BitVec.getLsbD_extractLsb', m2Word_getLsbD _ _ _ _ _ _ _ _ _ _ (by omega)]
    repeat rw [if_neg (by omega)]
    rw [if_pos (by omega)]
    simp [hn]
  case en | b58 | t0 | t1 => exact m2Word_getLsbD _ _ _ _ _ _ _ _ _ _ (by decide)

/-- A word is the one its ten bit groups make. -/
theorem m2Word_of_groups (w : Word) :
    m2Word (w.getLsbD 63) (w.extractLsb' 59 4) (w.getLsbD 58) (w.extractLsb' 50 8) (w.getLsbD 49)
      (w.getLsbD 48) (w.extractLsb' 40 8) (w.extractLsb' 32 8) (w.extractLsb' 16 16)
      (w.extractLsb' 0 16) = w := by
  apply BitVec.eq_of_getLsbD_eq
  intro n hn
  rw [m2Word_getLsbD _ _ _ _ _ _ _ _ _ _ hn]
  simp only [BitVec.getLsbD_extractLsb']
  split_ifs <;> grind

/-! ### One bit of a word (R24, R48) -/

theorem setBit_getLsbD (v : Word) (n : Nat) (b : Bool) {m : Nat} (hm : m < 64) :
    (setBit v n b).getLsbD m = if m = n then b else v.getLsbD m := by
  simp only [setBit, BitVec.getLsbD_or, BitVec.getLsbD_and, BitVec.getLsbD_not,
    BitVec.getLsbD_shiftLeft, BitVec.getLsbD_setWidth, BitVec.getLsbD_ofBool, BitVec.getLsbD_one]
  grind

/-! ### RES0 bits (R42) -/

theorem res0Read_eq (c : Config) {n : Nat} (x : BitVec n) :
    res0Read c x = if c.res0Mode = .stored then x else 0#n := by
  cases h : c.res0Mode <;> simp [res0Read, h]

theorem m2Bit58_eq (c : Config) (m : M2) :
    m2Bit58 c m =
      if c.tidrPresent then m.tidr else decide (c.res0Mode = .stored) && m.res58 := by
  cases h : c.res0Mode <;> simp [m2Bit58, res0Read, h]

theorem layoutRead_getLsbD (c : Config) (l : Layout) (rest : Word) {n : Nat} (hn : n < 64) :
    (layoutRead c l rest).getLsbD n =
      (rest.getLsbD n && (l.rw.getLsbD n || decide (c.res0Mode = .stored))) := by
  simp only [layoutRead, res0Read_eq, BitVec.getLsbD_or, BitVec.getLsbD_and, BitVec.getLsbD_not, hn]
  cases l.rw.getLsbD n <;> cases h : c.res0Mode <;> simp

/-! ### What a read of MPAM2_EL2 shows (R43, R176) -/

/-- The word that a set of MPAM2_EL2's fields reads as, every PARTID and PMG being in range. -/
def m2WordOf (c : Config) (en : Bool) (m : M2) : Word :=
  m2Word en (res0Read c m.res62to59) (m2Bit58 c m) (res0Read c m.res57to50) m.trapMpam0El1
    m.trapMpam1El1 m.pmgD m.pmgI m.partidD m.partidI

theorem idReadback_of_le {n : Nat} (s : State) (f : M2Field) {max stored : BitVec n}
    (h : stored ≤ max) : idReadback s f max stored = stored := if_pos h

/-- A read that sees the fields `m`, all in range, is the word of `m`. -/
theorem readMPAM2_of_seen {v : View} {s : State} {m : M2}
    (hseen : ∀ (α : Type) (f : M2Field) (get : M2 → α), m2Seen s v f get = get m)
    (hids : m.pmgD ≤ s.cfg.pmgMax ∧ m.pmgI ≤ s.cfg.pmgMax ∧ m.partidD ≤ s.cfg.partidMax ∧
      m.partidI ≤ s.cfg.partidMax) :
    readMPAM2 v s = m2WordOf s.cfg (mpamenSeen s v) m := by
  obtain ⟨hpmgD, hpmgI, hpartidD, hpartidI⟩ := hids
  simp only [readMPAM2, m2WordOf, hseen, idReadback_of_le s _ hpmgD, idReadback_of_le s _ hpmgI,
    idReadback_of_le s _ hpartidD, idReadback_of_le s _ hpartidI]

theorem readMPAM2_of_synced (v : View) {s : State} (hs : s.synced = true) (hids : idsInRange s) :
    readMPAM2 v s = m2WordOf s.cfg s.mpamen s.m2 := by
  rw [readMPAM2_of_seen (fun _ f get => m2Seen_of_synced s v f get hs) hids,
    mpamenSeen_of_synced s v hs]

theorem readMPAM2_bit63 (v : View) (s : State) :
    (readMPAM2 v s).getLsbD 63 = mpamenSeen s v := (m2Word_fields _ _ _ _ _ _ _ _ _ _).1

theorem readMPAM3_bit63 (s : State) : (readMPAM3 s).getLsbD 63 = mpamenSeen s .mpam3 := by
  have hne : 63 ≠ s.cfg.traplowerBit.val := by omega
  rw [readMPAM3, setBit_getLsbD _ _ _ (by decide), if_neg hne, setBit_getLsbD _ _ _ (by decide),
    if_pos rfl]

theorem readMPAM1_bit63 (s : State) : (readMPAM1 s).getLsbD 63 = mpamenSeen s .mpam1 := by
  rw [readMPAM1, setBit_getLsbD _ _ _ (by decide), if_pos rfl]

/-! ### A read through the path of a write needs no synchronisation (R176 (a)) -/

theorem mpamenSeen_of_newest {s : State} {v : View} {old : Bool} {ps : List (Pending Bool)}
    (h : s.enPending = ⟨v, old⟩ :: ps) : mpamenSeen s v = s.mpamen := by
  unfold mpamenSeen
  cases s.cfg.syncModel <;> simp [h, olderValues, oldOrNew]

theorem m2Seen_of_newest {α : Type} {s : State} {v : View} {old : M2} {ps : List (Pending M2)}
    (h : s.m2Pending = ⟨v, old⟩ :: ps) (f : M2Field) (get : M2 → α) :
    m2Seen s v f get = get s.m2 := by
  unfold m2Seen
  cases s.cfg.syncModel <;> simp [h, olderValues, oldOrNew]

/-- Where EL3 keeps MPAMEN from the write, a synchronised MPAMEN stays so. -/
theorem mpamenSeen_writeMPAM2 (v : View) (w : Word) {s : State}
    (h : s.cfg.haveEL3 = false ∨ s.synced = true) :
    mpamenSeen (writeMPAM2 v w s) v = (writeMPAM2 v w s).mpamen := by
  cases h3 : s.cfg.haveEL3 with
  | false => exact mpamenSeen_of_newest (old := s.mpamen) (ps := s.enPending) (by simp [h3])
  | true =>
    have hs : s.synced = true := by simpa [h3] using h
    have hkeep : mpamenSeen (writeMPAM2 v w s) v = mpamenSeen s v := by
      simp [mpamenSeen, drawAt, h3]
    simp [hkeep, mpamenSeen_of_synced s v hs, h3]

theorem readMPAM2_writeMPAM2 (v : View) (w : Word) {s : State} (hpartid : s.cfg.partidMax = 0xFFFF#16)
    (hpmg : s.cfg.pmgMax = 0xFF#8) (h : s.cfg.haveEL3 = false ∨ s.synced = true) :
    readMPAM2 v (writeMPAM2 v w s) =
      m2WordOf s.cfg (writeMPAM2 v w s).mpamen (m2Written s.cfg w s.m2) := by
  rw [readMPAM2_of_seen (m := m2Written s.cfg w s.m2)
    (fun _ f get => m2Seen_of_newest (old := s.m2) (ps := s.m2Pending) (by simp) f get),
    mpamenSeen_writeMPAM2 v w h, writeMPAM2_cfg]
  simp only [writeMPAM2_cfg, hpartid, hpmg]
  exact ⟨by bv_omega, by bv_omega, by bv_omega, by bv_omega⟩

/-- The fields that a write of `w` leaves read as `w` under the write mask of the configuration, beside
MPAMEN. -/
theorem m2WordOf_m2Written (c : Config) (en : Bool) (w : Word) (m : M2) :
    m2WordOf c en (m2Written c w m) =
      (w &&& (if c.res0Mode = .stored then 0x7FFFFFFFFFFFFFFF#64
        else if c.tidrPresent then 0x0403FFFFFFFFFFFF#64 else 0x0003FFFFFFFFFFFF#64)) |||
        ((BitVec.ofBool en).setWidth 64 <<< 63) := by
  have hall4 (x : BitVec 4) : x &&& 15#4 = x := BitVec.and_allOnes
  have hall8 (x : BitVec 8) : x &&& 255#8 = x := BitVec.and_allOnes
  have hall16 (x : BitVec 16) : x &&& 65535#16 = x := BitVec.and_allOnes
  rw [← m2Word_of_groups (_ ||| _)]
  simp only [m2WordOf, m2Written, res0Read_eq, m2Bit58_eq]
  cases c.res0Mode <;> cases c.tidrPresent <;> cases en <;>
    simp [BitVec.extractLsb'_and, BitVec.extractLsb'_or, hall4, hall8, hall16]

/-! ### The obligations -/

/-- Settles O33: a synchronised read is the word of the stored fields. -/
theorem readMpam2ShowsTheBitGroups : Obligations.ReadMpam2ShowsTheBitGroups := by
  intro v s hs hids
  rw [readMPAM2_of_synced v hs hids, ← res0Read_eq, ← res0Read_eq, ← m2Bit58_eq]
  exact m2Word_fields _ _ _ _ _ _ _ _ _ _

/-- Settles O34, field by field of `m2Written`. -/
theorem writeMpam2FiltersByField : Obligations.WriteMpam2FiltersByField := by
  intro v w s
  simp [m2Written]

/-- Settles O35: a read through the write's path sees the fields just written. -/
theorem mpam2ReadsBackWhatWasWritten : Obligations.Mpam2ReadsBackWhatWasWritten := by
  intro v w s hpartid hpmg h
  exact (readMPAM2_writeMPAM2 v w hpartid hpmg h).trans (m2WordOf_m2Written _ _ _ _)

/-- Settles O37: each view's bit 63 is the MPAMEN that view shows, the current one once synchronised. -/
theorem threeViewsShareOneEnable : Obligations.ThreeViewsShareOneEnable := by
  intro s hs
  exact ⟨(readMPAM3_bit63 s).trans (mpamenSeen_of_synced s _ hs),
    (readMPAM1_bit63 s).trans (mpamenSeen_of_synced s _ hs),
    (readMPAM2_bit63 _ s).trans (mpamenSeen_of_synced s _ hs),
    (readMPAM2_bit63 _ s).trans (mpamenSeen_of_synced s _ hs)⟩

/-- Settles O40: the two bits are set after the layout's bits, and the write is the newest one of its own
path. -/
theorem mpam3ReadsBackWhatWasWritten : Obligations.Mpam3ReadsBackWhatWasWritten := by
  intro w s
  have hbit : s.cfg.traplowerBit.val < 64 := by omega
  refine ⟨?_, ?_, fun l hl n hn hne => ?_⟩
  · exact (readMPAM3_bit63 _).trans (mpamenSeen_of_newest (s := writeMPAM3 w s) rfl)
  · rw [readMPAM3, setBit_getLsbD _ _ _ hbit]
    simp
  · have h64 : n < 64 := by omega
    have h63 : n ≠ 63 := by omega
    rw [readMPAM3, setBit_getLsbD _ _ _ h64, writeMPAM3_cfg, if_neg hne, setBit_getLsbD _ _ _ h64,
      if_neg h63, hl, writeMPAM3_mpam3Rest]
    exact layoutRead_getLsbD s.cfg l w h64

/-- Settles O44: a synchronised label sees the current MPAMEN and fields. -/
theorem labelsFollowTheEnable : Obligations.LabelsFollowTheEnable := by
  intro s hs
  refine ⟨fun hen n e k => ?_, fun hen n => ⟨?_, ?_⟩⟩ <;>
    simp [mpamLabel, mpamenSeen_of_synced s _ hs, m2Seen_of_synced s _ _ _ hs, hen]

/-- Settles O45: the predicate is R33's formula. -/
theorem eitherControlTrapsMpamidr : Obligations.EitherControlTrapsMpamidr := by
  intro s
  simp [trapIdr]

end Sys2Proof.Machine
end

section
/-! The registers through the instructions that reach them: MPAMEN written with MPAM2_EL2 (10_state.md R29)
and MPAM2_EL2 read twice (20_memory.md R82). -/

namespace Sys2Proof.Machine

/-- A completed read of MPAM2_EL2 through its own encoding. -/
theorem exec_mrsMpam2El2_next {t : RegNum} {s s' : State}
    (hv : verdict (.mrsMpam2El2 t) s = .access .mpam2)
    (h : exec (.mrsMpam2El2 t) s = .next s') :
    s' = tick { writeX s t (readMPAM2 .mpam2 s) with pc := s.pc + 4#64 } := by
  rw [exec_of_access hv] at h
  obtain ⟨-, rfl⟩ := complete_next (s := writeX s t (readMPAM2 .mpam2 s)) h
  rw [writeX_pc]

/-- Without EL3 an `MSR` that reaches MPAM2_EL2 completes and makes bit 63 of X[t] the MPAMEN (R29). -/
theorem exec_msr_mpam2_sets_mpamen {i : Instr} {s : State} (hi : i.isRead = false)
    (hv : verdict i s = .access .mpam2) (h3 : s.cfg.haveEL3 = false) (hroom : roomForNext s = true) :
    ∃ s', exec i s = .next s' ∧ s'.mpamen = (readX s i.rt).getLsbD 63 := by
  obtain ⟨s', h, -⟩ := exec_of_access_with_room hv hroom
  obtain ⟨v, rfl⟩ := exec_msr_next hi hv h
  exact ⟨_, h, by simp [h3]⟩

/-! ### The obligations -/

/-- Settles O36: with EL3 the owner of MPAMEN is MPAM3_EL3 (O38); without it every level that reaches
MPAM2_EL2 writes bit 63. -/
theorem mpam2EnableIsReadOnlyUnderEL3 : Obligations.Mpam2EnableIsReadOnlyUnderEL3 := by
  refine ⟨fun t s s' h3 h => ?_,
    fun v s hs => (readMPAM2_bit63 v s).trans (mpamenSeen_of_synced s v hs),
    fun t s h3 hf hroom => ⟨fun hel => ?_, fun hel he => ?_⟩⟩
  · have hkeep (i : Instr) (hreg : i.sysReg ≠ .mpam3El3) (h : exec i s = .next s') :
        s'.mpamen = s.mpamen := by
      by_contra hne
      obtain ⟨-, ⟨-, hmpam3, -⟩ | ⟨hno, -⟩⟩ := onlyItsOwnerChangesTheEnable i s s' h hne
      · exact hreg hmpam3
      · simp [h3] at hno
    exact h.elim (hkeep _ (by simp [Instr.sysReg])) (hkeep _ (by simp [Instr.sysReg]))
  · have hv : verdict (.msrMpam2El2 t) s = .access .mpam2 := by
      rw [verdict_mpam2 rfl hf]
      obtain hel | hel := hel <;> simp [tableMpam2, hel, t3, h3]
    exact exec_msr_mpam2_sets_mpamen rfl hv h3 hroom
  · have hv : verdict (.msrMpam1El1 t) s = .access .mpam2 := by
      rw [verdict_mpam1 rfl hf]
      simp [tableMpam1, hel, he, t3, h3]
    exact exec_msr_mpam2_sets_mpamen rfl hv h3 hroom

/-- Settles O42: the first read changes nothing that the second one's verdict or value depends on, and each
value is the word of the stored fields. -/
theorem repeatedReadsAgree : Obligations.RepeatedReadsAgree := by
  intro t u s s₁ s₂ ht hu htu hs hids hv h₁ h₂
  have hs₁ := exec_mrsMpam2El2_next hv h₁
  have hkeep : s₁ = { s with x := s₁.x, pc := s.pc + 4#64, draws := s.draws + 1 } := by
    rw [hs₁]
    simp [tick, writeX, ht]
  have hv₁ : verdict (.mrsMpam2El2 u) s₁ = .access .mpam2 := by rw [hkeep]; exact hv
  have hsame : readMPAM2 .mpam2 s₁ = readMPAM2 .mpam2 s := by
    rw [hkeep, readMPAM2_of_synced _ hs hids]
    exact readMPAM2_of_synced _ hs hids
  have hs₂ := exec_mrsMpam2El2_next hv₁ h₂
  have hother : sameXBut t s s₁ := by
    intro w hw
    rw [hs₁]
    exact readX_writeX_other s t w _ hw
  refine ⟨?_, hother, hkeep⟩
  calc readX s₂ u
      = readMPAM2 .mpam2 s₁ := by rw [hs₂]; exact readX_writeX_same s₁ u _ hu
    _ = readMPAM2 .mpam2 s := hsame
    _ = readX s₁ t := by rw [hs₁]; exact (readX_writeX_same s t _ ht).symm
    _ = readX s₂ t := by rw [hs₂]; exact (readX_writeX_other s₁ u t _ htu).symm

end Sys2Proof.Machine
end

section
/-! What every step keeps: the invariant (10_state.md R25, R49, R52, R55; 20_memory.md R75, R79), and the
Exception level but for a return or a Warm reset. Both follow from where an instruction can leave the pc
and the level. -/

namespace Sys2Proof.Machine

/-! ### Admitted states -/

/-- A state with an admitted state's parameters and inputs is admitted at any level they allow. -/
theorem admitted_of_level {s u : State} (ha : s.admitted = true) (hcfg : u.cfg = s.cfg)
    (hinp : u.inp = s.inp) (h3 : u.pstate.el = .el3 → s.cfg.haveEL3 = true)
    (h2 : u.pstate.el = .el2 → s.inp.el2Enabled = true) : u.admitted = true := by
  simp only [State.admitted, hcfg, hinp, Bool.and_eq_true, Bool.or_eq_true, decide_eq_true_eq]
    at ha ⊢
  grind

theorem haveEL3_of_admitted {s : State} (ha : s.admitted = true) (hel : s.pstate.el = .el3) :
    s.cfg.haveEL3 = true := by
  simp_all [State.admitted]

theorem el2Enabled_of_admitted {s : State} (ha : s.admitted = true) (hel : s.pstate.el = .el2) :
    s.inp.el2Enabled = true := by
  simp_all [State.admitted]

theorem resetPC_aligned_of_admitted {s : State} (ha : s.admitted = true) :
    s.cfg.resetPC.toNat % 4 = 0 := by
  simp_all [State.admitted]

theorem vbar_aligned_of_admitted {s : State} (ha : s.admitted = true) (k : HandlerEL) :
    (vbar s.cfg k).toNat % 4 = 0 := by
  cases k <;> simp_all [State.admitted, vbar]

theorem aligned_add {a b : Word} (ha : a.toNat % 4 = 0) (hb : b.toNat % 4 = 0) :
    (a + b).toNat % 4 = 0 := by
  rw [BitVec.toNat_add]
  omega

theorem vectorOffset_aligned (s : State) (k : HandlerEL) : (vectorOffset s k).toNat % 4 = 0 := by
  unfold vectorOffset
  split
  · rfl
  · split <;> rfl

/-! ### The level and the pc after an instruction -/

/-- The level an instruction's exception is taken to, by its verdict. -/
def takenTo (i : Instr) (s : State) (k : HandlerEL) : Prop :=
  (verdict i s = .undefined ∧ k = undefinedTarget s) ∨ verdict i s = .trap k

/-- An instruction keeps PSTATE and keeps or advances the pc, or is at a vector of its target. -/
theorem exec_next_pstate_pc {i : Instr} {s s' : State} (h : exec i s = .next s') :
    (s'.pstate = s.pstate ∧ (s'.pc = s.pc ∨ s'.pc = s.pc + 4#64)) ∨
      ∃ k, takenTo i s k ∧ s'.pstate.el = k.toEL ∧ s'.pc = vbar s.cfg k + vectorOffset s k := by
  obtain ⟨hv, -, rfl⟩ | ⟨k, hv, -, rfl⟩ | ⟨r, hv, hr⟩ := exec_next h
  · obtain ⟨-, hu⟩ | ⟨-, hu⟩ := takeUndefined_cases s
    · exact .inl (by simp [hu])
    · exact .inr ⟨undefinedTarget s, .inl ⟨hv, rfl⟩, by simp [hu], by simp [hu]⟩
  · exact .inr ⟨k, .inr hv, by simp, by simp⟩
  · obtain ⟨u, hu, hpc, ⟨-, -, -, hps, -⟩, -⟩ := performed_completes i r s
    obtain ⟨-, rfl⟩ := complete_next (hu ▸ hr)
    exact .inl ⟨hps, .inr (by simp [hpc])⟩

/-- An Undefined exception from EL1 up stays at its level (R152). -/
theorem undefinedTarget_of_ne_el0 {s : State} (h : s.pstate.el ≠ .el0) :
    (undefinedTarget s).toEL = s.pstate.el := by
  cases hel : s.pstate.el <;> simp_all [undefinedTarget, HandlerEL.toEL]

/-- From EL0 it goes to EL1, or to EL2 where that is enabled (R152). -/
theorem undefinedTarget_of_el0 {s : State} (h : s.pstate.el = .el0) :
    undefinedTarget s = .el1 ∨ (undefinedTarget s = .el2 ∧ s.inp.el2Enabled = true) := by
  simp only [undefinedTarget, h]
  split <;> simp_all

/-- What traps to EL3 traps where EL3 is implemented; what traps to EL2 traps from EL1, with EL2
enabled (R142, R143). -/
theorem verdict_trap_cases {i : Instr} {s : State} {k : HandlerEL} (hv : verdict i s = .trap k) :
    (k = .el3 ∧ s.cfg.haveEL3 = true) ∨
      (k = .el2 ∧ s.inp.el2Enabled = true ∧ s.pstate.el = .el1) := by
  obtain ⟨rfl, hl⟩ | ⟨rfl, hl⟩ := (verdict_trap_iff i s k).mp hv
  · exact .inl ⟨rfl, by simp_all [listedTrapEL3]⟩
  · refine .inr ⟨rfl, ?_⟩
    cases hi : i.sysReg
    case mpam1El1 =>
      obtain ⟨-, hel, -, h2⟩ := (listedTrapEL2_mpam1_iff s hi).mp hl
      exact ⟨by simp_all [t2], hel⟩
    case mpam2El2 =>
      obtain ⟨-, hel, hn, -⟩ := (listedTrapEL2_mpam2_iff s hi).mp hl
      exact ⟨by simp_all [nvt], hel⟩
    case mpam3El3 => simp [listedTrapEL2_mpam3 s hi] at hl

/-- The target of an exception is a level the state admits. -/
theorem takenTo_admits {i : Instr} {s : State} {k : HandlerEL} (ha : s.admitted = true)
    (h : takenTo i s k) :
    (k.toEL = .el3 → s.cfg.haveEL3 = true) ∧ (k.toEL = .el2 → s.inp.el2Enabled = true) := by
  obtain ⟨-, rfl⟩ | hv := h
  · by_cases h0 : s.pstate.el = .el0
    · obtain hk | ⟨hk, h2⟩ := undefinedTarget_of_el0 h0 <;> simp_all [HandlerEL.toEL]
    · rw [undefinedTarget_of_ne_el0 h0]
      exact ⟨haveEL3_of_admitted ha, el2Enabled_of_admitted ha⟩
  · obtain ⟨rfl, h3⟩ | ⟨rfl, h2, -⟩ := verdict_trap_cases hv <;> simp_all [HandlerEL.toEL]

/-- The target of an exception is no lower than the level it is taken from. -/
theorem takenTo_not_lower {i : Instr} {s : State} {k : HandlerEL} (h : takenTo i s k) :
    s.pstate.el.toNat ≤ k.toEL.toNat := by
  obtain ⟨-, rfl⟩ | hv := h
  · by_cases h0 : s.pstate.el = .el0
    · simp [h0, EL.toNat]
    · rw [undefinedTarget_of_ne_el0 h0]
  · obtain ⟨rfl, -⟩ | ⟨rfl, -, hel⟩ := verdict_trap_cases hv
    · cases s.pstate.el <;> decide
    · rw [hel]; decide

/-! ### What an instruction and an event keep -/

theorem exec_keeps_inv {i : Instr} {s s' : State} (hinv : s.Inv) (h : exec i s = .next s') :
    s'.Inv := by
  obtain ⟨ha, hover, htext, hmem, hpc⟩ := hinv
  obtain ⟨⟨hcfg, hinp, htxt, -⟩, -⟩ := exec_next_keeps_given_and_ticks h
  have hmem' : Memory.wf s'.mem = true := by
    obtain hm | ⟨-, hm⟩ := exec_next_mem h
    · rw [hm]; exact hmem
    · rw [hm]; exact Memory.wf_nvStore s _ hmem
  have hlevel : s'.admitted = true ∧ s'.pc.toNat % 4 = 0 := by
    obtain ⟨hps, hpc'⟩ | ⟨k, hk, hel, hpc'⟩ := exec_next_pstate_pc h
    · refine ⟨admitted_of_level ha hcfg hinp ?_ ?_, ?_⟩
      · rw [hps]; exact haveEL3_of_admitted ha
      · rw [hps]; exact el2Enabled_of_admitted ha
      · obtain hpc' | hpc' := hpc' <;> rw [hpc']
        · exact hpc
        · exact aligned_add hpc rfl
    · obtain ⟨h3, h2⟩ := takenTo_admits ha hk
      rw [← hel] at h3 h2
      refine ⟨admitted_of_level ha hcfg hinp h3 h2, ?_⟩
      rw [hpc']
      exact aligned_add (vbar_aligned_of_admitted ha k) (vectorOffset_aligned s k)
  obtain ⟨ha', hpc'⟩ := hlevel
  exact ⟨ha', (textOverlapsNVMem_congr htxt hinp).trans hover, by rw [htxt]; exact htext, hmem', hpc'⟩

theorem runEvent_keeps_inv {e : EnvEvent} {s s' : State} (hinv : s.Inv)
    (h : runEvent e s = .next s') : s'.Inv := by
  obtain ⟨ha, hover, htext, hmem, hpc⟩ := hinv
  obtain ⟨-, ha', hover', rfl⟩ | ⟨-, rfl⟩ | ⟨adv, -, hret⟩ | ⟨inp, -, ha', hover', rfl⟩ :=
    runEvent_next h
  · exact ⟨ha', hover', htext, rfl, resetPC_aligned_of_admitted ha⟩
  · exact ⟨ha, hover, htext, hmem, hpc⟩
  · obtain ⟨k, -, rfl, ha', hover', haligned, -⟩ := exceptionReturn_next hret
    exact ⟨ha', hover', by simpa using htext, by simpa using hmem, haligned⟩
  · exact ⟨ha', hover', htext, hmem, hpc⟩

theorem exec_not_lower {i : Instr} {s s' : State} (h : exec i s = .next s') :
    s.pstate.el.toNat ≤ s'.pstate.el.toNat := by
  obtain ⟨hps, -⟩ | ⟨k, hk, hel, -⟩ := exec_next_pstate_pc h
  · rw [hps]
  · rw [hel]; exact takenTo_not_lower hk

/-! ### Fetch and events -/

theorem fetch_of_decode {s : State} {bs rest : List Byte} {i : Instr} (hpc : s.pc.toNat % 4 = 0)
    (hbs : readWordBytes s.text s.pc.toNat = some bs) (hd : decode bs = .ok (i, rest)) :
    fetch s = .next i := by
  simp [fetch, hpc, hbs, hd]

theorem step_of_event {s : State} {e : EnvEvent} {rest : List EnvEvent} (he : s.events = e :: rest)
    (ha : s.admitted = true) (hover : textOverlapsNVMem s = false) :
    step s = runEvent e { s with events := rest } := by
  simp [step, unlessRefused_of _ ha hover, he]

/-! ### The obligations -/

/-- Settles O8: by the kind of the step. -/
theorem stepKeepsTheInvariant : Obligations.StepKeepsTheInvariant := by
  intro s s' hinv h
  obtain ⟨-, -, ⟨e, rest, -, hevent⟩ | ⟨-, i, -, hexec⟩⟩ := step_next h
  · exact runEvent_keeps_inv (s := { s with events := rest }) hinv hevent
  · exact exec_keeps_inv hinv hexec

/-- Settles O11: an instruction never goes lower, and the two other events keep PSTATE. -/
theorem onlyReturnOrResetLowersTheLevel : Obligations.OnlyReturnOrResetLowersTheLevel := by
  intro s s' h hlt
  obtain ⟨-, -, ⟨e, rest, he, hevent⟩ | ⟨-, i, -, hexec⟩⟩ := step_next h
  · refine ⟨rest, ?_⟩
    obtain ⟨rfl, -⟩ | ⟨-, rfl⟩ | ⟨adv, rfl, -⟩ | ⟨inp, -, -, -, rfl⟩ := runEvent_next hevent
    · exact .inl he
    · exact absurd hlt (lt_irrefl _)
    · exact .inr ⟨adv, he⟩
    · exact absurd hlt (lt_irrefl _)
  · exact absurd (exec_not_lower hexec) (not_le.mpr hlt)

/-- Settles O6: where an instruction is fetched, the step is the fetched instruction's. -/
theorem stepRunsTheDecodedInstruction : Obligations.StepRunsTheDecodedInstruction := by
  intro s bs rest i hready hbs hd _
  rw [step_of_ready hready]
  obtain ⟨-, -, -, hpc⟩ := hready
  rw [fetch_of_decode hpc hbs hd]

/-- Settles O9: an admitted level, no text, an aligned pc. -/
theorem resetMeetsTheInvariant : Obligations.ResetMeetsTheInvariant := by
  obtain ⟨hmem, htext⟩ := Memory.wf_reset
  exact ⟨by decide, rfl, htext, hmem, rfl⟩

/-- Settles O51: the reset is not refused, and it leaves nothing unsynchronised. -/
theorem warmResetEventGivesTheStatedValues : Obligations.WarmResetEventGivesTheStatedValues := by
  intro s rest he ha hover h3 h2
  have hstep : step s = .next (warmReset { s with events := rest }) := by
    rw [step_of_event he ha hover]
    exact unlessRefused_of _ (admitted_of_level ha rfl rfl h3 h2) hover
  have hs : (warmReset { s with events := rest }).synced = true := by
    simp [State.synced, warmReset]
  have hen (v : View) : mpamenSeen (warmReset { s with events := rest }) v = false :=
    mpamenSeen_of_synced _ v hs
  exact ⟨_, hstep, rfl, (readMPAM2_bit63 _ _).trans (hen _), (readMPAM3_bit63 _).trans (hen _),
    (readMPAM1_bit63 _).trans (hen _), fun hno => by simp [warmReset, drawnM2, hno], rfl, rfl, hs,
    rfl, rfl, rfl, rfl⟩

/-- Settles O50: the values of `State.resetOf`. -/
theorem resetGivesTheStatedValues : Obligations.ResetGivesTheStatedValues := by
  refine ⟨fun c inp => ⟨rfl, fun h3 => ?_⟩, rfl⟩
  simp [State.resetOf, M2.afterReset, h3]

/-- Settles O52: without EL3 the reset sets TRAPMPAM1EL1 and TRAPLOWER has no effect. -/
theorem firstEL1AccessAfterResetTraps : Obligations.FirstEL1AccessAfterResetTraps := by
  intro c inp i hf h3 hel h2 hi
  have hlisted : listedTrapEL2 i (State.resetOf c inp) = true := by
    rw [listedTrapEL2_mpam1_iff _ hi]
    simp [State.resetOf, M2.afterReset, PState.afterReset, t3, t2, hf, h3, hel, h2]
  exact exec_of_trap ((verdict_trap_iff _ _ _).mpr (.inr ⟨rfl, hlisted⟩))

end Sys2Proof.Machine
end

section
/-! The meanings of `MSR MPAM1_EL1` (41_mpam1_el1_access.md R122) and of the accessors of MPAM3_EL3
(42_mpam3_el3_access.md R131, R132) on every path: the verdict of the path, and what is done there. -/

namespace Sys2Proof.Machine

/-- A performed access with room for the next address answers the state it completes. -/
theorem exec_eq_next_of_performed {i : Instr} {r : Reach} {s u : State}
    (hv : verdict i s = .access r) (hu : performed i r s = complete u) (hpc : u.pc = s.pc)
    (hdraws : u.draws = s.draws) (hroom : roomForNext s = true) :
    exec i s = .next { u with pc := s.pc + 4#64, draws := s.draws + 1 } := by
  rw [exec_of_access hv, hu, complete_of_room hpc hroom, ← hdraws]
  rfl

/-! ### The paths of the accessors of MPAM1_EL1 (R121, R122) -/

section
variable {i : Instr} {s : State} (hi : i.sysReg = .mpam1El1) (hf : s.cfg.featMPAM = true)
include hi hf

theorem verdict_mpam1_reaches_mpam1
    (h : s.pstate.el = .el3 ∨ (s.pstate.el = .el2 ∧ t3 s = false ∧ e2h s = false) ∨
      (s.pstate.el = .el1 ∧ t3 s = false ∧ t2 s = false ∧ nv2m s = false)) :
    verdict i s = .access .mpam1 := by
  rw [verdict_mpam1 hi hf]
  obtain hel | ⟨hel, h3, he⟩ | ⟨hel, h3, h2, hn⟩ := h
  · rw [hel]; rfl
  · rw [hel, h3, he]; rfl
  · rw [hel, h3, h2, hn]; rfl

theorem verdict_mpam1_reaches_mpam2 (hel : s.pstate.el = .el2) (h3 : t3 s = false)
    (he : e2h s = true) : verdict i s = .access .mpam2 := by
  rw [verdict_mpam1 hi hf, hel, h3, he]; rfl

theorem verdict_mpam1_reaches_nvMem (hel : s.pstate.el = .el1) (h3 : t3 s = false)
    (h2 : t2 s = false) (hn : nv2m s = true) : verdict i s = .access .nvMem := by
  rw [verdict_mpam1 hi hf, hel, h3, h2, hn]; rfl

theorem verdict_mpam1_of_el0 (hel : s.pstate.el = .el0) : verdict i s = .undefined := by
  rw [verdict_mpam1 hi hf, hel]; rfl

theorem verdict_mpam1_of_t2 (hel : s.pstate.el = .el1) (h3 : t3 s = false) (h2 : t2 s = true) :
    verdict i s = .trap .el2 := by
  rw [verdict_mpam1 hi hf, hel, h3, h2]; rfl

theorem verdict_mpam1_of_t3 (hel : s.pstate.el = .el1 ∨ s.pstate.el = .el2) (h3 : t3 s = true) :
    verdict i s = if sd s then .undefined else .trap .el3 := by
  rw [verdict_mpam1 hi hf, h3]
  obtain hel | hel := hel <;> rw [hel] <;> cases sd s <;> rfl

end

/-! ### The obligations -/

/-- Settles O15: each path's verdict, and the access it performs. -/
theorem msrMpam1El1Meaning : Obligations.MsrMpam1El1Meaning := by
  intro t s hf
  have hi : (Instr.msrMpam1El1 t).sysReg = .mpam1El1 := rfl
  refine ⟨fun h hroom => ?_, fun hel h3 he hroom => ?_, fun hel h3 h2 hn hroom => ?_,
    fun hel => exec_of_undefined (verdict_mpam1_of_el0 hi hf hel),
    fun hel h3 h2 => exec_of_trap (verdict_mpam1_of_t2 hi hf hel h3 h2),
    fun hel h3 hsd => exec_of_undefined ?_, fun hel h3 hsd => exec_of_trap ?_,
    movesNothing_exec_of_no_access⟩
  · exact exec_eq_next_of_performed (verdict_mpam1_reaches_mpam1 hi hf h) rfl rfl rfl hroom
  · exact exec_eq_next_of_performed (verdict_mpam1_reaches_mpam2 hi hf hel h3 he) rfl
      (writeMPAM2_pc _ _ _) (writeMPAM2_draws _ _ _) hroom
  · exact exec_eq_next_of_performed (verdict_mpam1_reaches_nvMem hi hf hel h3 h2 hn) rfl rfl rfl hroom
  · rw [verdict_mpam1_of_t3 hi hf hel h3, hsd]; rfl
  · rw [verdict_mpam1_of_t3 hi hf hel h3, hsd]; rfl

/-- Settles O16: at EL3 the register is read, below it the access is Undefined. -/
theorem mrsMpam3El3Meaning : Obligations.MrsMpam3El3Meaning := by
  intro t s hf h3
  have hv := verdict_mpam3 (i := .mrsMpam3El3 t) rfl hf
  refine ⟨fun hel hroom => ?_, fun hel => exec_of_undefined (by simp [hv, hel])⟩
  have hu : performed (.mrsMpam3El3 t) .mpam3 s = complete (writeX s t (readMPAM3 s)) := rfl
  exact exec_eq_next_of_performed (by simp [hv, h3, hel]) hu (writeX_pc _ _ _) (writeX_draws _ _ _)
    hroom

/-- Settles O17: at EL3 the register is written, below it the access is Undefined. -/
theorem msrMpam3El3Meaning : Obligations.MsrMpam3El3Meaning := by
  intro t s hf h3
  have hv := verdict_mpam3 (i := .msrMpam3El3 t) rfl hf
  refine ⟨fun hel hroom => ?_, fun hel => exec_of_undefined (by simp [hv, hel])⟩
  have hu : performed (.msrMpam3El3 t) .mpam3 s = complete (writeMPAM3 (readX s t) s) := rfl
  exact exec_eq_next_of_performed (by simp [hv, h3, hel]) hu rfl rfl hroom

end Sys2Proof.Machine
end

section
/-! Hardwired RES0 bits have no effect (10_state.md R42, D14): clearing them commutes with every instruction,
up to the cleared bits themselves. -/

namespace Sys2Proof.Machine

@[simp] theorem M2.clearRes_clearRes (m : M2) : m.clearRes.clearRes = m.clearRes := rfl

@[simp] theorem clearRes_clearRes (s : State) : s.clearRes.clearRes = s.clearRes := by
  simp [State.clearRes]

/-! ### What reads ignore the cleared bits -/

theorem olderValues_map {α : Type} (v : View) (f : α → α) (ps : List (Pending α)) :
    olderValues v (ps.map (fun p => ⟨p.view, f p.old⟩)) = (olderValues v ps).map f := by
  induction ps with
  | nil => rfl
  | cons p ps ih =>
    by_cases hp : p.view = v <;> simp [olderValues, hp, ih]

/-- A field that the cleared bits are no part of is seen as before, by every path. -/
theorem m2Seen_clearRes {α : Type} (s : State) (v : View) (f : M2Field) {get : M2 → α}
    (hget : ∀ m : M2, get m.clearRes = get m) :
    m2Seen s.clearRes v f get = m2Seen s v f get := by
  have hcomp : get ∘ M2.clearRes = get := funext hget
  unfold m2Seen
  cases hm : s.cfg.syncModel <;>
    simp [State.clearRes, hm, hget, drawAt, olderValues_map, hcomp]

/-- Hardwired RES0 bits read 0, so no bit of the word is a cleared one. -/
theorem readMPAM2_clearRes (v : View) {s : State} (hw : s.cfg.res0Mode = .hardwired) :
    readMPAM2 v s.clearRes = readMPAM2 v s := by
  have hres {n : Nat} (x : BitVec n) : res0Read s.cfg x = 0#n := by simp [res0Read_eq, hw]
  have hbit58 (m : M2) : m2Bit58 s.cfg m.clearRes = m2Bit58 s.cfg m := by
    simp [m2Bit58_eq, hw, M2.clearRes]
  have hcfg : s.clearRes.cfg = s.cfg := rfl
  have hen : mpamenSeen s.clearRes v = mpamenSeen s v := rfl
  have hid {n : Nat} (f : M2Field) (max stored : BitVec n) :
      idReadback s.clearRes f max stored = idReadback s f max stored := rfl
  simp only [readMPAM2, hcfg, hen, hid, hres]
  rw [m2Seen_clearRes s v _ hbit58, m2Seen_clearRes s v .trapMpam0El1 fun _ => rfl,
    m2Seen_clearRes s v .trapMpam1El1 fun _ => rfl, m2Seen_clearRes s v .pmgD fun _ => rfl,
    m2Seen_clearRes s v .pmgI fun _ => rfl, m2Seen_clearRes s v .partidD fun _ => rfl,
    m2Seen_clearRes s v .partidI fun _ => rfl]

/-! ### What updates do with them -/

theorem clearResOut_complete (s : State) : clearResOut (complete s) = complete s.clearRes := by
  have hpc : s.clearRes.pc = s.pc := rfl
  unfold complete
  rw [hpc]
  split <;> rfl

theorem clearResOut_complete_clearRes (s : State) :
    clearResOut (complete s.clearRes) = clearResOut (complete s) := by
  rw [clearResOut_complete, clearResOut_complete, clearRes_clearRes]

theorem clearRes_writeX (s : State) (t : RegNum) (v : Word) :
    (writeX s t v).clearRes = writeX s.clearRes t v := by
  unfold writeX
  split <;> rfl

/-- A write of MPAM2_EL2 drops hardwired RES0 bits, so it keeps what was cleared apart. -/
theorem clearRes_writeMPAM2 (v : View) (w : Word) {s : State} (hw : s.cfg.res0Mode = .hardwired) :
    (writeMPAM2 v w s.clearRes).clearRes = (writeMPAM2 v w s).clearRes := by
  have hm2 : (m2Written s.cfg w s.m2.clearRes).clearRes = (m2Written s.cfg w s.m2).clearRes := by
    simp [m2Written, M2.clearRes, hw]
  unfold writeMPAM2
  cases h3 : s.cfg.haveEL3 <;> simp [State.clearRes, writeMpamen, h3, hm2]

theorem clearResOut_moveToX (t : RegNum) (v : Word) (s : State) :
    clearResOut (moveToX t v s.clearRes) = clearResOut (moveToX t v s) := by
  rw [moveToX, moveToX, ← clearRes_writeX, clearResOut_complete_clearRes]

theorem clearRes_enterException (k : HandlerEL) (esr : BitVec 32) (s : State) :
    (enterException k esr s.clearRes).clearRes = (enterException k esr s).clearRes := by
  cases k <;> rfl

theorem clearRes_takeUndefined (s : State) :
    (takeUndefined s.clearRes).clearRes = (takeUndefined s).clearRes := by
  have hinp : s.clearRes.inp = s.inp := rfl
  unfold takeUndefined
  rw [hinp]
  split
  · exact congrArg (fun u : State => { u with debugError := true }) (clearRes_clearRes s)
  · exact clearRes_enterException (undefinedTarget s) (undefinedEsr s) s

theorem clearResOut_raise (i : Instr) (e : Exc) (s : State) :
    clearResOut (raise i e s.clearRes) = clearResOut (raise i e s) := by
  have htick (u : State) : (tick u).clearRes = tick u.clearRes := rfl
  have hcfg : s.clearRes.cfg = s.cfg := rfl
  cases hm : s.cfg.onException <;> cases e <;>
    simp [raise, hcfg, hm, clearResOut, htick, clearRes_takeUndefined, clearRes_enterException]

theorem clearResOut_performed (i : Instr) (r : Reach) {s : State}
    (hw : s.cfg.res0Mode = .hardwired) :
    clearResOut (performed i r s.clearRes) = clearResOut (performed i r s) := by
  have hread (v : View) (t : RegNum) :
      clearResOut (moveToX t (readMPAM2 v s.clearRes) s.clearRes) =
        clearResOut (moveToX t (readMPAM2 v s) s) := by
    rw [readMPAM2_clearRes v hw, clearResOut_moveToX]
  have hwrite (v : View) (w : Word) :
      clearResOut (complete (writeMPAM2 v w s.clearRes)) =
        clearResOut (complete (writeMPAM2 v w s)) := by
    rw [clearResOut_complete, clearRes_writeMPAM2 v w hw, clearResOut_complete]
  cases i with
  | mrsMpam2El2 t => exact hread .mpam2 t
  | msrMpam2El2 t => exact hwrite .mpam2 (readX s t)
  | mrsMpam1El1 t =>
    cases r with
    | mpam1 | mpam3 => exact clearResOut_moveToX t (readMPAM1 s) s
    | mpam2 => exact hread .mpam2ViaMpam1 t
    | nvMem =>
      exact clearResOut_moveToX t (nvValue s)
        { s with nvLog := .read (nvAddr s).toNat (nvValue s) :: s.nvLog }
  | msrMpam1El1 t =>
    cases r with
    | mpam1 | mpam3 => exact clearResOut_complete_clearRes (writeMPAM1 (readX s t) s)
    | mpam2 => exact hwrite .mpam2ViaMpam1 (readX s t)
    | nvMem =>
      exact clearResOut_complete_clearRes
        { s with
          mem := nvStore s (readX s t)
          nvLog := .write (nvAddr s).toNat (readX s t) :: s.nvLog }
  | mrsMpam3El3 t => exact clearResOut_moveToX t (readMPAM3 s) s
  | msrMpam3El3 t => exact clearResOut_complete_clearRes (writeMPAM3 (readX s t) s)

/-- Settles O43: the verdict does not see the cleared bits, and neither an entry nor an access does. -/
theorem hardwiredRes0BitsHaveNoEffect : Obligations.HardwiredRes0BitsHaveNoEffect := by
  intro i s hw
  have hv : verdict i s.clearRes = verdict i s := rfl
  cases h : verdict i s with
  | undefined =>
    rw [exec_of_undefined (hv.trans h), exec_of_undefined h, clearResOut_raise]
  | trap k => rw [exec_of_trap (hv.trans h), exec_of_trap h, clearResOut_raise]
  | access r => rw [exec_of_access (hv.trans h), exec_of_access h, clearResOut_performed i r hw]

end Sys2Proof.Machine
end

section
/-! `NVMem[0x900]` (20_memory.md R71 to R81): where it stands, what a write to it stores and a read of it
returns, and that nothing else reaches data memory. -/

namespace Sys2Proof.Machine

/-! ### The eight bytes -/

/-- Byte `n` of a 64-bit value as memory holds it (R74). -/
theorem dataBytes_getElem? (be : Bool) (v : Word) {n : Nat} (hn : n < 8) :
    (dataBytes be v)[n]? = some (v.extractLsb' (8 * (if be then 7 - n else n)) 8) := by
  cases be <;> interval_cases n <;> rfl

theorem read_nvStore_inside (s : State) (w : Word) {n : Nat} (hn : n < 8) :
    Memory.read (nvStore s w) ((nvAddr s).toNat + n) =
      some (w.extractLsb' (8 * (if s.inp.nvBigEndian then 7 - n else n)) 8) := by
  rw [nvStore, Memory.read_writeBytes_inside _ _ _ _ (by rwa [dataBytes_length]),
    dataBytes_getElem? _ _ hn]

/-- Under the sequential reading (R78), the value read after `w` is stored is `w`, whatever the draw for
the bytes nothing has written. -/
theorem nvValue_of_nvStore {s u : State} {w : Word} (hflat : u.cfg.nvReadModel = .flat)
    (hinp : u.inp = s.inp) (hmem : u.mem = nvStore s w) : nvValue u = w := by
  have haddr : nvAddr u = nvAddr s := by simp only [nvAddr, hinp]
  have hlen : (dataBytes s.inp.nvBigEndian (drawAt u .nvMem)).length =
      (dataBytes s.inp.nvBigEndian w).length := by rw [dataBytes_length, dataBytes_length]
  simp only [nvValue, hflat, hinp, hmem, haddr, nvStore]
  rw [Memory.readBytesOr_writeBytes _ _ _ _ hlen, ofDataBytes_dataBytes]

/-! ### The two accesses -/

/-- A performed write of NVMem[0x900] (R72). -/
theorem exec_msrMpam1El1_nvMem_next {t : RegNum} {s s' : State}
    (hv : verdict (.msrMpam1El1 t) s = .access .nvMem)
    (h : exec (.msrMpam1El1 t) s = .next s') :
    s' = { s with
      mem := nvStore s (readX s t)
      nvLog := .write (nvAddr s).toNat (readX s t) :: s.nvLog
      pc := s.pc + 4#64
      draws := s.draws + 1 } := by
  obtain ⟨v, rfl⟩ := exec_msr_next rfl hv h
  rfl

/-- A performed read of NVMem[0x900] writes the value of the eight bytes to X[t] (R71). -/
theorem readX_of_exec_mrsMpam1El1_nvMem {t : RegNum} {s s' : State} (ht : t < 31)
    (hv : verdict (.mrsMpam1El1 t) s = .access .nvMem)
    (h : exec (.mrsMpam1El1 t) s = .next s') : readX s' t = nvValue s := by
  rw [exec_of_access hv] at h
  obtain ⟨-, rfl⟩ := complete_next (s := writeX _ t (nvValue s)) h
  exact readX_writeX_same _ t (nvValue s) ht

theorem written_nvLog_of_ne {r : Reach} (v : View) (w : Word) (s : State) (hr : r ≠ .nvMem) :
    (written r v w s).nvLog = s.nvLog := by
  cases r with
  | mpam1 | mpam2 | mpam3 => simp [written]
  | nvMem => exact absurd rfl hr

/-- Off the NVMem path no memory event is made, by an access or by an exception. -/
theorem exec_next_nvLog {i : Instr} {s s' : State} (h : exec i s = .next s')
    (hne : verdict i s ≠ .access .nvMem) : s'.nvLog = s.nvLog := by
  by_cases hv : ∃ r, verdict i s = .access r
  · obtain ⟨r, hv⟩ := hv
    have hr : r ≠ .nvMem := by rintro rfl; exact hne hv
    cases hi : i.isRead with
    | true =>
      obtain ⟨val, log, rfl, hlog⟩ := exec_mrs_next hi hv h
      simpa using hlog hr
    | false =>
      obtain ⟨v, rfl⟩ := exec_msr_next hi hv h
      exact written_nvLog_of_ne v _ s hr
  · obtain ⟨-, -, -, hlog⟩ := movesNothing_exec_of_no_access (not_exists.mp hv) s' h
    exact hlog

/-! ### The obligations -/

/-- Settles O48, from the address as a number. -/
theorem nvAddressIsAligned : Obligations.NvAddressIsAligned := by
  intro s
  have haddr := nvAddr_toNat s
  exact ⟨haddr, by omega, nvAddr_room s⟩

/-- Settles O46: the performed write's next state, and the bytes of `nvStore`. -/
theorem nvWriteStoresTheRegister : Obligations.NvWriteStoresTheRegister := by
  intro t s hv hroom
  obtain ⟨s', h, -, hexc⟩ := exec_of_access_with_room hv hroom
  obtain rfl := exec_msrMpam1El1_nvMem_next hv h
  exact ⟨_, h, fun _ hn => read_nvStore_inside s _ hn, fun _ ha => read_nvStore_outside s _ ha, rfl,
    ⟨rfl, rfl, rfl, rfl, rfl⟩, hexc, ⟨rfl, rfl, rfl, rfl⟩, rfl, rfl, rfl⟩

/-- Settles O47: the write leaves the reader on the NVMem path, where it reads the bytes just stored. -/
theorem nvReadReturnsTheLastWrite : Obligations.NvReadReturnsTheLastWrite := by
  intro t u s s₁ s₂ hflat hu hv h₁ h₂
  have hs₁ := exec_msrMpam1El1_nvMem_next hv h₁
  have hv₁ : verdict (.mrsMpam1El1 u) s₁ = .access .nvMem := by rw [hs₁]; exact hv
  calc readX s₂ u
      = nvValue s₁ := readX_of_exec_mrsMpam1El1_nvMem hu hv₁ h₂
    _ = readX s t :=
      nvValue_of_nvStore (s := s) (by rw [hs₁]; exact hflat) (by rw [hs₁]) (by rw [hs₁])

/-- Settles O49: `exec_next_mem` and `exec_next_nvLog` off the path, the bytes of `nvStore` on it. -/
theorem onlyMpam1ReachesMemory : Obligations.OnlyMpam1ReachesMemory := by
  intro i s s' h
  refine ⟨fun hne => ⟨?_, exec_next_nvLog h hne⟩, fun hv => ⟨?_, fun hi => ?_, fun a ha => ?_⟩⟩
  · obtain hmem | ⟨hv, -⟩ := exec_next_mem h
    · exact hmem
    · exact absurd hv hne
  · simpa using verdict_access_reach hv
  · exact (exec_mrs_keeps_mpam_and_mem hi h).2
  · obtain hmem | ⟨-, hmem⟩ := exec_next_mem h
    · rw [hmem]
    · rw [hmem, read_nvStore_outside s _ ha]

end Sys2Proof.Machine
end

section
/-! The program text: a placed word is fetched and decodes to its instruction (20_memory.md R74,
30_encoding.md R94 to R97), and a text over NVMem is refused (20_memory.md R79). -/

namespace Sys2Proof.Machine

open Sys2Proof.Laws

/-! ### A word and its bytes (R74) -/

theorem wordOfBytes_bytesOfWord (w : BitVec 32) :
    wordOfBytes (w.extractLsb' 0 8) (w.extractLsb' 8 8) (w.extractLsb' 16 8) (w.extractLsb' 24 8) =
      w := by
  apply BitVec.eq_of_getLsbD_eq
  intro n hn
  simp only [wordOfBytes, BitVec.getLsbD_or, BitVec.getLsbD_shiftLeft, BitVec.getLsbD_setWidth,
    BitVec.getLsbD_extractLsb']
  interval_cases n <;> simp

/-- The decoder takes the word of the first four bytes and leaves the rest. -/
theorem decode_bytesOfWord_append {w : BitVec 32} {i : Instr} (rest : List Byte)
    (h : decodeWord w = .ok i) : decode (bytesOfWord w ++ rest) = .ok (i, rest) := by
  simp only [bytesOfWord, List.cons_append, List.nil_append, decode, wordOfBytes_bytesOfWord, h]

/-! ### A row and its `Rt` (R95, R96) -/

theorem encodeMatch_and_rowMask (i : Instr) :
    EncodeMatch.rowMatch i &&& rowMask = EncodeMatch.rowMatch i := by
  cases i <;> simp only [EncodeMatch.rowMatch] <;> decide

theorem encodeMatch_extract_rt (i : Instr) :
    (EncodeMatch.rowMatch i).extractLsb' 0 5 = 0#5 := by
  cases i <;> simp only [EncodeMatch.rowMatch] <;> decide

/-- `EncodeMatch.Statement` for every instruction. -/
theorem encodeWord_eq_rowMatch_or_rt (i : Instr) : EncodeMatch.Statement i := by
  cases i with
  | mrsMpam2El2 t => exact EncodeMatch.mrsMpam2El2 t
  | msrMpam2El2 t => exact EncodeMatch.msrMpam2El2 t
  | mrsMpam1El1 t => exact EncodeMatch.mrsMpam1El1 t
  | msrMpam1El1 t => exact EncodeMatch.msrMpam1El1 t
  | mrsMpam3El3 t => exact EncodeMatch.mrsMpam3El3 t
  | msrMpam3El3 t => exact EncodeMatch.msrMpam3El3 t

theorem setWidth_and_rowMask (b : BitVec 5) : b.setWidth 32 &&& rowMask = 0#32 := by
  revert b
  decide

/-- The mask leaves an instruction's match of its word. -/
theorem encodeWord_and_rowMask (i : Instr) :
    encodeWord i &&& rowMask = EncodeMatch.rowMatch i := by
  rw [encodeWord_eq_rowMatch_or_rt i, BitVec.and_or_distrib_right, setWidth_and_rowMask,
    encodeMatch_and_rowMask, BitVec.or_zero]

/-- The five bits the mask leaves out are `Rt`. -/
theorem encodeWord_extract_rt {i : Instr} (hwf : i.wellFormed = true) :
    ((encodeWord i).extractLsb' 0 5).toNat = i.rt := by
  have hrt : i.rt < 32 := by simpa [Instr.wellFormed] using hwf
  rw [encodeWord_eq_rowMatch_or_rt i, BitVec.extractLsb'_or, encodeMatch_extract_rt]
  simpa using hrt

/-- A word with an instruction's match and number in it decodes to that instruction: the six matches are
different words, so the search stops at its row (R97). -/
theorem decodeWord_of_rowMatch {w : BitVec 32} {i : Instr}
    (hmatch : w &&& rowMask = EncodeMatch.rowMatch i) (hrt : (w.extractLsb' 0 5).toNat = i.rt) :
    decodeWord w = .ok i := by
  simp only [decodeWord, decodeRows, findRow, hmatch, hrt]
  cases i <;> simp [EncodeMatch.rowMatch, Instr.rt]

theorem decode_encode_append {i : Instr} (rest : List Byte) (hwf : i.wellFormed = true) :
    decode (encode i ++ rest) = .ok (i, rest) :=
  decode_bytesOfWord_append rest
    (decodeWord_of_rowMatch (encodeWord_and_rowMask i) (encodeWord_extract_rt hwf))

/-! ### Which cells a store leaves -/

theorem Memory.mem_of_read {m : List Host.Cell} {a : Nat} {b : Byte}
    (h : Memory.read m a = some b) : (a, b) ∈ m := by
  induction m with
  | nil => cases h
  | cons c m ih =>
    obtain ⟨k, v⟩ := c
    by_cases hk : k = a
    · simp_all [Memory.read]
    · exact List.mem_cons_of_mem _ (ih (by simpa [Memory.read, hk] using h))

/-- A cell of the memory after a store is the one stored or was there before. -/
theorem Memory.mem_write {m : List Host.Cell} {a : Nat} {b : Byte} {c : Host.Cell}
    (h : c ∈ Memory.write m a b) : c = (a, b) ∨ c ∈ m := by
  induction m with
  | nil => simpa [Memory.write] using h
  | cons d m ih =>
    obtain ⟨k, v⟩ := d
    unfold Memory.write at h
    split_ifs at h
    · exact List.mem_cons.mp h
    · obtain rfl | hm := List.mem_cons.mp h
      · exact .inl rfl
      · exact .inr (List.mem_cons_of_mem _ hm)
    · obtain rfl | hm := List.mem_cons.mp h
      · exact .inr List.mem_cons_self
      · exact (ih hm).imp_right (List.mem_cons_of_mem _)

/-- A cell of the memory after a store of bytes is at one of their addresses or was there before. -/
theorem Memory.mem_writeBytes {m : List Host.Cell} {a : Nat} {bs : List Byte} {c : Host.Cell}
    (h : c ∈ Memory.writeBytes m a bs) : (a ≤ c.1 ∧ c.1 < a + bs.length) ∨ c ∈ m := by
  induction bs generalizing m a with
  | nil => exact .inr h
  | cons b bs ih =>
    rw [List.length_cons]
    obtain ⟨hle, hlt⟩ | hm := ih h
    · exact .inl (by omega)
    · obtain rfl | hm := Memory.mem_write hm
      · exact .inl (by simp)
      · exact .inr hm

theorem readWordBytes_storeWord32 (m : List Host.Cell) (a : Nat) (w : BitVec 32) :
    readWordBytes (storeWord32 m a w) a = some (bytesOfWord w) := by
  have hread (n : Nat) (hn : n < 4) :
      Memory.read (storeWord32 m a w) (a + n) = (bytesOfWord w)[n]? :=
    Memory.read_writeBytes_inside m a n _ hn
  have h0 := hread 0 (by decide)
  rw [Nat.add_zero] at h0
  simp [readWordBytes, h0, hread, bytesOfWord]

/-! ### The text and NVMem (R79) -/

theorem textOverlapsNVMem_iff (s : State) :
    textOverlapsNVMem s = true ↔ ∃ c ∈ s.text, inNVMem s c.1 := by
  simp [textOverlapsNVMem, inNVMem]

theorem withFetchWord_toNat_text (s : State) (w : BitVec 32) :
    (s.withFetchWord 32 w.toNat).text = storeWord32 s.text s.pc.toNat w := by
  simp [Nat.mod_eq_of_lt w.isLt]

/-- A word placed clear of the eight bytes makes no overlap. -/
theorem textOverlapsNVMem_withFetchWord {s : State} (w : BitVec 32)
    (hover : textOverlapsNVMem s = false)
    (hclear : s.pc.toNat + 4 ≤ (nvAddr s).toNat ∨ (nvAddr s).toNat + 8 ≤ s.pc.toNat) :
    textOverlapsNVMem (s.withFetchWord 32 w.toNat) = false := by
  rw [Bool.eq_false_iff, ne_eq, textOverlapsNVMem_iff] at hover ⊢
  rintro ⟨c, hc, hin⟩
  rw [withFetchWord_toNat_text] at hc
  obtain ⟨hle, hlt⟩ | hold := Memory.mem_writeBytes hc
  · have hlen : (bytesOfWord w).length = 4 := rfl
    have hnv : (nvAddr s).toNat ≤ c.1 ∧ c.1 < (nvAddr s).toNat + 8 := hin
    omega
  · exact hover ⟨c, hold, hin⟩

/-! ### The obligations -/

/-- Settles O7: the placed state is ready to fetch, and the bytes at its pc are the encoding. -/
theorem placedWordsRun : Obligations.PlacedWordsRun := by
  intro s i ⟨ha, hover, he, hpc⟩ hwf hclear
  have hover' := textOverlapsNVMem_withFetchWord (encodeWord i) hover hclear
  have hbytes : readWordBytes (s.withFetchWord 32 (encodeWord i).toNat).text s.pc.toNat =
      some (encode i) := by
    rw [withFetchWord_toNat_text]
    exact readWordBytes_storeWord32 _ _ _
  have hdecode : decode (encode i) = .ok (i, []) := by
    simpa using decode_encode_append [] hwf
  exact stepRunsTheDecodedInstruction _ _ _ i ⟨ha, hover', he, hpc⟩ hbytes hdecode hwf

/-- Settles O56: the byte read is a cell of the text, and `step` refuses before it looks further. -/
theorem overlappingLaunchesAreRefused : Obligations.OverlappingLaunchesAreRefused := by
  intro s a b ha hread hin
  have hover : textOverlapsNVMem s = true :=
    (textOverlapsNVMem_iff s).mpr ⟨(a, b), Memory.mem_of_read hread, hin⟩
  simp [step, unlessRefused, ha, hover]

end Sys2Proof.Machine
end

section
/-! One outcome of each instruction (60_exceptions.md R140 to R144), the frame of an `MRS`, and the meaning of
`MRS MPAM1_EL1` (41_mpam1_el1_access.md R121). -/

namespace Sys2Proof.Machine

/-! ### Undefined by the tables and by R144's list -/

theorem tableMpam1_undefined_iff (e : EL) (T3 SD T2 NV2 E2H : Bool) :
    tableMpam1 e T3 SD T2 NV2 E2H = .undefined ↔
      e = .el0 ∨ ((e = .el1 ∨ e = .el2) ∧ T3 = true ∧ SD = true) := by
  revert T3 SD T2 NV2 E2H
  cases e <;> decide

theorem tableMpam2_undefined_iff (e : EL) (NV T3 SD : Bool) :
    tableMpam2 e NV T3 SD = .undefined ↔
      e = .el0 ∨ (e = .el1 ∧ NV = false) ∨
        ((e = .el1 ∧ NV = true ∨ e = .el2) ∧ T3 = true ∧ SD = true) := by
  revert NV T3 SD
  cases e <;> decide

/-- R144's list in the named conditions. -/
theorem listedUndefined_iff (i : Instr) (s : State) :
    listedUndefined i s = true ↔
      s.cfg.featMPAM = false ∨ s.pstate.el = .el0 ∨
        (i.sysReg = .mpam2El2 ∧ s.pstate.el = .el1 ∧ nvt s = false) ∨
        (trapLowerCase i s = true ∧ t3 s = true ∧ sd s = true) ∨
        (i.sysReg = .mpam3El3 ∧ (s.pstate.el ≠ .el3 ∨ s.cfg.haveEL3 = false)) := by
  simp only [listedUndefined, nvt, t3, sd, Bool.or_eq_true, Bool.and_eq_true, Bool.not_eq_true',
    decide_eq_true_eq, or_assoc, and_assoc]

/-- The verdict is Undefined on R144's list alone. -/
theorem verdict_undefined_iff (i : Instr) (s : State) :
    verdict i s = .undefined ↔ listedUndefined i s = true := by
  rw [listedUndefined_iff]
  cases hf : s.cfg.featMPAM
  · simp [verdict_of_not_featMPAM i hf]
  · cases hi : i.sysReg
    case mpam1El1 =>
      rw [verdict_mpam1 hi hf, tableMpam1_undefined_iff]
      cases hel : s.pstate.el <;> simp [trapLowerCase, hi, hel]
    case mpam2El2 =>
      rw [verdict_mpam2 hi hf, tableMpam2_undefined_iff]
      cases hel : s.pstate.el <;> simp [trapLowerCase, hi, hel, nvt]
    case mpam3El3 =>
      rw [verdict_mpam3 hi hf]
      cases hel : s.pstate.el <;> simp [trapLowerCase, hi, hel]

/-! ### The read of NVMem (R121) -/

theorem writeX_of_nvLog (s : State) (t : RegNum) (v : Word) (log : List NVEvent) :
    writeX { s with nvLog := log } t v = { writeX s t v with nvLog := log } := by
  unfold writeX
  split <;> rfl

theorem performed_mrsMpam1El1_nvMem (t : RegNum) (s : State) :
    performed (.mrsMpam1El1 t) .nvMem s =
      complete { writeX s t (nvValue s) with
        nvLog := .read (nvAddr s).toNat (nvValue s) :: s.nvLog } :=
  congrArg complete (writeX_of_nvLog s t _ _)

/-! ### The obligations -/

/-- Settles O23: the three lists are three verdicts, and the verdict left is an access. -/
theorem everyInstructionHasOneOutcome : Obligations.EveryInstructionHasOneOutcome := by
  intro i s
  have hundef := verdict_undefined_iff i s
  have htrap3 : verdict i s = .trap .el3 ↔ listedTrapEL3 i s = true := by simp [verdict_trap_iff]
  have htrap2 : verdict i s = .trap .el2 ↔ listedTrapEL2 i s = true := by simp [verdict_trap_iff]
  have hexcl {a b : Bool} {v w : Verdict} (ha : verdict i s = v ↔ a = true)
      (hb : verdict i s = w ↔ b = true) (hne : v ≠ w) : (a && b) = false := by
    rw [Bool.eq_false_iff, ne_eq, Bool.and_eq_true, ← ha, ← hb]
    rintro ⟨hv, hw⟩
    exact hne (hv.symm.trans hw)
  refine ⟨hexcl hundef htrap3 (by simp), hexcl hundef htrap2 (by simp),
    hexcl htrap3 htrap2 (by simp), fun hu h3 h2 hroom => ?_⟩
  cases hv : verdict i s with
  | undefined => simp [hundef.mp hv] at hu
  | trap k =>
    obtain ⟨-, hl⟩ | ⟨-, hl⟩ := (verdict_trap_iff i s k).mp hv
    · simp [hl] at h3
    · simp [hl] at h2
  | access r => exact exec_of_access_with_room hv hroom

/-- Settles O53: a performed `MRS` writes X[t] alone beside the pc, and what is no access moves nothing. -/
theorem mrsFrame : Obligations.MrsFrame := by
  intro i s s' hi h
  obtain ⟨hmpam, hmem⟩ := exec_mrs_keeps_mpam_and_mem hi h
  obtain ⟨hgiven, -⟩ := exec_next_keeps_given_and_ticks h
  have hsame : sameMem s s' := fun a => by rw [hmem]
  by_cases hv : ∃ r, verdict i s = .access r
  · obtain ⟨r, hv⟩ := hv
    obtain ⟨val, log, hs, -⟩ := exec_mrs_next hi hv h
    have hx : sameXBut i.rt s s' := by
      intro u hu
      rw [hs]
      exact readX_writeX_other { s with nvLog := log } i.rt u val hu
    refine ⟨hx, hmpam, hsame, hgiven, fun r' hv' => ⟨sameExc_of_access hv h, ?_, ?_, fun hr => ?_⟩⟩
    · simp [hs]
    · simp [hs]
    · exact exec_next_nvLog h (by simpa [hv'] using hr)
  · have hno := not_exists.mp hv
    obtain ⟨hx, -⟩ := movesNothing_exec_of_no_access hno s' h
    exact ⟨fun u _ => by rw [readX, readX, hx], hmpam, hsame, hgiven, fun r hr => absurd hr (hno r)⟩

/-- Settles O14: each path's verdict, and the access it performs. -/
theorem mrsMpam1El1Meaning : Obligations.MrsMpam1El1Meaning := by
  intro t s hf
  have hi : (Instr.mrsMpam1El1 t).sysReg = .mpam1El1 := rfl
  have hmove {r : Reach} (v : Word) (hv : verdict (.mrsMpam1El1 t) s = .access r)
      (hu : performed (.mrsMpam1El1 t) r s = complete (writeX s t v)) (hroom : roomForNext s = true) :=
    exec_eq_next_of_performed hv hu (writeX_pc s t v) (writeX_draws s t v) hroom
  refine ⟨fun h hroom => ?_, fun hel h3 he hroom => ?_, fun hel h3 h2 hn hroom => ?_,
    fun hel => exec_of_undefined (verdict_mpam1_of_el0 hi hf hel),
    fun hel h3 h2 => exec_of_trap (verdict_mpam1_of_t2 hi hf hel h3 h2),
    fun hel h3 hsd => exec_of_undefined ?_, fun hel h3 hsd => exec_of_trap ?_,
    movesNothing_exec_of_no_access⟩
  · exact hmove _ (verdict_mpam1_reaches_mpam1 hi hf h) rfl hroom
  · exact hmove _ (verdict_mpam1_reaches_mpam2 hi hf hel h3 he) rfl hroom
  · have hu := performed_mrsMpam1El1_nvMem t s
    exact exec_eq_next_of_performed (verdict_mpam1_reaches_nvMem hi hf hel h3 h2 hn) hu
      (writeX_pc s t _) (writeX_draws s t _) hroom
  · rw [verdict_mpam1_of_t3 hi hf hel h3, hsd]; rfl
  · rw [verdict_mpam1_of_t3 hi hf hel h3, hsd]; rfl

end Sys2Proof.Machine
end

section
/-! Decoding and encoding are inverse, and a word outside the six rows is refused (30_encoding.md R91 to
R99). Both rest on what a word that decodes looks like: its row's match, and `Rt` in the five bits the mask
leaves out. -/

namespace Sys2Proof.Machine

open Sys2Proof.Laws

/-! ### What the decoder answers (R95 to R97) -/

/-- A search that answers an instruction has found a row that the word matches. -/
theorem findRow_ok {w : BitVec 32} {rows : List (BitVec 32 × (RegNum → Instr))} {i : Instr}
    (h : findRow w rows = .ok i) :
    ∃ mk, (w &&& rowMask, mk) ∈ rows ∧ i = mk (w.extractLsb' 0 5).toNat := by
  induction rows with
  | nil => cases h
  | cons row rows ih =>
    obtain ⟨m, mk⟩ := row
    by_cases hm : w &&& rowMask = m
    · rw [findRow, if_pos hm] at h
      cases h
      exact ⟨mk, by simp [hm], rfl⟩
    · rw [findRow, if_neg hm] at h
      obtain ⟨mk', hmem, hi⟩ := ih h
      exact ⟨mk', List.mem_cons_of_mem _ hmem, hi⟩

/-- The two tables of R95's matches agree. -/
theorem rowMatch_eq_encodeMatch (i : Instr) :
    rowMatch i.sysReg i.isRead = EncodeMatch.rowMatch i := by
  cases i <;> rfl

/-- Each row of the decoder makes instructions with the row's match. -/
theorem encodeMatch_of_mem_decodeRows {m : BitVec 32} {mk : RegNum → Instr} (t : RegNum)
    (h : (m, mk) ∈ decodeRows) : m = EncodeMatch.rowMatch (mk t) ∧ (mk t).rt = t := by
  simp only [decodeRows, List.mem_cons, Prod.mk.injEq, List.not_mem_nil, or_false] at h
  obtain ⟨rfl, rfl⟩ | ⟨rfl, rfl⟩ | ⟨rfl, rfl⟩ | ⟨rfl, rfl⟩ | ⟨rfl, rfl⟩ | ⟨rfl, rfl⟩ := h <;>
    exact ⟨rfl, rfl⟩

/-- A word decodes to an instruction exactly where it has the instruction's match and number in it. -/
theorem decodeWord_eq_ok_iff (w : BitVec 32) (i : Instr) :
    decodeWord w = .ok i ↔
      w &&& rowMask = EncodeMatch.rowMatch i ∧ (w.extractLsb' 0 5).toNat = i.rt := by
  refine ⟨fun h => ?_, fun ⟨hmatch, hrt⟩ => decodeWord_of_rowMatch hmatch hrt⟩
  obtain ⟨mk, hmem, rfl⟩ := findRow_ok h
  obtain ⟨hmatch, hrt⟩ := encodeMatch_of_mem_decodeRows (w.extractLsb' 0 5).toNat hmem
  exact ⟨hmatch, hrt.symm⟩

/-- The mask and `Rt` share out the bits of a word. -/
theorem and_rowMask_or_extract_rt (w : BitVec 32) :
    (w &&& rowMask) ||| (w.extractLsb' 0 5).setWidth 32 = w := by
  apply BitVec.eq_of_getLsbD_eq
  intro n hn
  simp only [BitVec.getLsbD_or, BitVec.getLsbD_and, BitVec.getLsbD_setWidth,
    BitVec.getLsbD_extractLsb']
  interval_cases n <;> simp [rowMask]

/-- A word that decodes is the word of its instruction, whose `Rt` is a 5-bit number. -/
theorem encodeWord_of_decodeWord {w : BitVec 32} {i : Instr} (h : decodeWord w = .ok i) :
    encodeWord i = w ∧ i.wellFormed = true := by
  obtain ⟨hmatch, hrt⟩ := (decodeWord_eq_ok_iff w i).mp h
  refine ⟨?_, ?_⟩
  · rw [encodeWord_eq_rowMatch_or_rt i, ← hmatch, ← hrt, BitVec.ofNat_toNat, BitVec.setWidth_eq,
      and_rowMask_or_extract_rt]
  · simp only [Instr.wellFormed, ← hrt, decide_eq_true_eq]
    exact (w.extractLsb' 0 5).isLt

/-! ### A word and its bytes (R94, 20_memory.md R74) -/

theorem wordOfBytes_eq_append (b0 b1 b2 b3 : Byte) :
    wordOfBytes b0 b1 b2 b3 = b3 ++ b2 ++ b1 ++ b0 := by
  apply BitVec.eq_of_getLsbD_eq
  intro n hn
  simp only [wordOfBytes, BitVec.getLsbD_or, BitVec.getLsbD_shiftLeft, BitVec.getLsbD_setWidth,
    BitVec.getLsbD_append]
  interval_cases n <;> simp

theorem bytesOfWord_wordOfBytes (b0 b1 b2 b3 : Byte) :
    bytesOfWord (wordOfBytes b0 b1 b2 b3) = [b0, b1, b2, b3] := by
  rw [wordOfBytes_eq_append]
  simp (disch := decide) only [bytesOfWord, BitVec.extractLsb'_append_eq_of_le,
    BitVec.extractLsb'_append_eq_of_add_le, Nat.reduceSub, BitVec.extractLsb'_eq_self]

/-- What decodes is four bytes of a word, which alone says the instruction, and the bytes left. -/
theorem decode_eq_ok {bs rest : List Byte} {i : Instr} (h : decode bs = .ok (i, rest)) :
    ∃ w, decodeWord w = .ok i ∧ bs = bytesOfWord w ++ rest := by
  unfold decode at h
  split at h
  case h_1 b0 b1 b2 b3 rest' =>
    split at h
    case h_1 hw =>
      cases h
      exact ⟨_, hw, by rw [bytesOfWord_wordOfBytes]; rfl⟩
    case h_2 => cases h
  case h_2 => cases h

theorem decode_bytesOfWord_error {w : BitVec 32} {why : DecodeReject}
    (h : decodeWord w = .error why) : decode (bytesOfWord w) = .error why := by
  simp only [bytesOfWord, decode, wordOfBytes_bytesOfWord, h]

theorem fetch_of_decode_error {s : State} {bs : List Byte} {why : DecodeReject}
    (hpc : s.pc.toNat % 4 = 0) (hbs : readWordBytes s.text s.pc.toNat = some bs)
    (hd : decode bs = .error why) : fetch s = .refused (.notDecoded why) := by
  simp [fetch, hpc, hbs, hd]

/-! ### The number a word is (R95) -/

theorem toNat_setWidth_shiftLeft {n m : Nat} (x : BitVec n) {k : Nat} (h : n + k ≤ m) :
    (x.setWidth m <<< k).toNat = x.toNat <<< k := by
  have hx : x.toNat <<< k < 2 ^ m :=
    (Nat.shiftLeft_lt x.isLt).trans_le (Nat.pow_le_pow_right (by decide) h)
  rw [BitVec.toNat_shiftLeft, BitVec.toNat_setWidth_of_le (by omega), Nat.mod_eq_of_lt hx]

/-- The field `Rt` of a well-formed instruction holds its number. -/
theorem toNat_ofNat_rt {i : Instr} (hwf : i.wellFormed = true) : (BitVec.ofNat 5 i.rt).toNat = i.rt :=
  Nat.mod_eq_of_lt (by simpa [Instr.wellFormed] using hwf)

theorem sysMoveWord_toNat (d : Bool) (e : SysEnc) (b : BitVec 5) :
    (sysMoveWord d e b).toNat =
      (0xD5000000 ||| (if d then 1 else 0) <<< 21 ||| e.op0.toNat <<< 19 ||| e.op1.toNat <<< 16 |||
        e.crn.toNat <<< 12 ||| e.crm.toNat <<< 8 ||| e.op2.toNat <<< 5 ||| b.toNat) := by
  simp (disch := decide) only [sysMoveWord, BitVec.toNat_or, toNat_setWidth_shiftLeft,
    BitVec.toNat_setWidth_of_le, BitVec.toNat_ofBool, Bool.toNat, Bool.cond_eq_ite,
    BitVec.reduceToNat]

theorem and_0x1F_toNat (w : BitVec 32) : (w &&& 0x1F#32).toNat = (w.extractLsb' 0 5).toNat := by
  rw [BitVec.toNat_and, BitVec.extractLsb'_toNat, Nat.shiftRight_zero]
  exact Nat.and_two_pow_sub_one_eq_mod _ 5

theorem rowMatch_injective {r r' : SysReg} {d d' : Bool} (h : rowMatch r d = rowMatch r' d') :
    r = r' ∧ d = d' := by
  revert d d'
  cases r <;> cases r' <;> decide

/-! ### The obligations -/

/-- Settles O1: the mask leaves the instruction's match of its word, and the five bits outside it are `Rt`. -/
theorem decodeInvertsEncode : Obligations.DecodeInvertsEncode :=
  fun _ rest hwf => decode_encode_append rest hwf

/-- Settles O2: the bytes are those of a word that decodes, and such a word is its instruction's. -/
theorem encodeInvertsDecode : Obligations.EncodeInvertsDecode := by
  intro bs rest i h
  obtain ⟨w, hw, rfl⟩ := decode_eq_ok h
  obtain ⟨rfl, hwf⟩ := encodeWord_of_decodeWord hw
  exact ⟨hwf, rfl⟩

/-- Settles O3: the fields of the word are shifted into place and lose no bit, `decodeWord_eq_ok_iff` is the
match and mask, and no two of the six matches are equal. -/
theorem wordsFollowMatchAndMask : Obligations.WordsFollowMatchAndMask := by
  refine ⟨fun i hwf => ?_, fun w i => ?_, fun _ _ _ _ => rowMatch_injective⟩
  · rw [encodeWord, sysMoveWord_toNat, toNat_ofNat_rt hwf]
  · rw [decodeWord_eq_ok_iff, rowMatch_eq_encodeMatch, and_0x1F_toNat, eq_comm (a := i.rt)]
    rfl

/-- Settles O5: a word that decodes would match its instruction's row. -/
theorem unknownWordsAreRefused : Obligations.UnknownWordsAreRefused := by
  intro s w hready hbs hno
  cases hw : decodeWord w with
  | ok i =>
    obtain ⟨hmatch, -⟩ := (decodeWord_eq_ok_iff w i).mp hw
    exact absurd (hmatch.trans (rowMatch_eq_encodeMatch i).symm) (hno i.sysReg i.isRead)
  | error why =>
    refine ⟨why, ?_⟩
    rw [step_of_ready hready]
    obtain ⟨-, -, -, hpc⟩ := hready
    rw [fetch_of_decode_error hpc hbs (decode_bytesOfWord_error hw)]

/-- Settles O4: nine closed words, run through the decoder. -/
theorem writtenOutWordsDecode : Obligations.WrittenOutWordsDecode := by
  unfold Obligations.WrittenOutWordsDecode
  decide

end Sys2Proof.Machine
end

section
/-! Accesses that are not performed: the syndrome of a trapped one (60_exceptions.md R151), what an exception
leaves (R149 to R152), and absent registers (30_encoding.md R98). -/

namespace Sys2Proof.Machine

/-! ### The syndrome of a trapped access (60_exceptions.md R151) -/

theorem accessIss_fields (i : Instr) :
    (accessIss i).extractLsb' 22 3 = 0#3 ∧
    (accessIss i).extractLsb' 20 2 = i.sysReg.enc.op0 ∧
    (accessIss i).extractLsb' 17 3 = i.sysReg.enc.op2 ∧
    (accessIss i).extractLsb' 14 3 = i.sysReg.enc.op1 ∧
    (accessIss i).extractLsb' 10 4 = i.sysReg.enc.crn ∧
    (accessIss i).extractLsb' 5 5 = BitVec.ofNat 5 i.rt ∧
    (accessIss i).extractLsb' 1 4 = i.sysReg.enc.crm ∧
    (accessIss i).getLsbD 0 = i.isRead := by
  simp (disch := decide) only [accessIss, BitVec.extractLsb'_append_eq_of_le,
    BitVec.extractLsb'_append_eq_of_add_le, Nat.reduceSub, BitVec.extractLsb'_eq_self,
    BitVec.getLsbD_append, BitVec.getLsbD_ofBool, Nat.zero_lt_one, if_true, decide_true,
    Bool.true_and, true_and]

theorem accessIss_toNat {i : Instr} (hwf : i.wellFormed = true) :
    (accessIss i).toNat =
      (i.sysReg.enc.op0.toNat <<< 20 ||| i.sysReg.enc.op2.toNat <<< 17 |||
        i.sysReg.enc.op1.toNat <<< 14 ||| i.sysReg.enc.crn.toNat <<< 10 |||
        i.sysReg.enc.crm.toNat <<< 1 ||| i.rt <<< 5 ||| (if i.isRead then 1 else 0)) := by
  simp only [accessIss, BitVec.toNat_append, toNat_ofNat_rt hwf, BitVec.toNat_ofBool, Bool.toNat,
    Bool.cond_eq_ite, Nat.shiftLeft_or_distrib, ← Nat.shiftLeft_add]
  simp [Nat.or_right_comm]

theorem trapEsr_toNat (i : Instr) : (trapEsr i).toNat = (0x62000000 ||| (accessIss i).toNat) :=
  BitVec.toNat_append (trapCode ++ 1#1) (accessIss i)

/-! ### Exceptions entered (60_exceptions.md R149 to R152) -/

/-- An instruction on one of the lists R142 to R144 performs no access. -/
theorem verdict_ne_access_of_listed {i : Instr} {s : State}
    (h : (listedUndefined i s || listedTrapEL3 i s || listedTrapEL2 i s) = true) (r : Reach) :
    verdict i s ≠ .access r := by
  simp only [Bool.or_eq_true, or_assoc] at h
  obtain hu | h3 | h2 := h
  · simp [(verdict_undefined_iff i s).mpr hu]
  · simp [(verdict_trap_iff i s .el3).mpr (.inl ⟨rfl, h3⟩)]
  · simp [(verdict_trap_iff i s .el2).mpr (.inr ⟨rfl, h2⟩)]

/-- A ticked entry has saved the pc and PSTATE at the level it goes to. -/
theorem entered_saves {h : HandlerEL} {esr : BitVec 32} {s s' : State}
    (hs : s' = tick (enterException h esr s)) :
    (bank s' h).elr = s.pc ∧ (bank s' h).spsr = s.pstate ∧ s'.pstate.el = h.toEL := by
  subst hs
  cases h <;> exact ⟨rfl, rfl, rfl⟩

/-! ### The obligations -/

/-- Settles O29: the fields in turn, and the number they make for each register that traps. -/
theorem syndromeOfATrappedAccess : Obligations.SyndromeOfATrappedAccess := by
  intro i hwf
  obtain ⟨hres, hop0, hop2, hop1, hcrn, hrt, hcrm, hdir⟩ := accessIss_fields i
  refine ⟨hres, hop0, hop2, hop1, hcrn, by rw [hrt, toNat_ofNat_rt hwf], hcrm, hdir, fun hr => ?_,
    fun hr => ?_, trapEsr_toNat i⟩
  · rw [accessIss_toNat hwf, hr]
    rfl
  · rw [accessIss_toNat hwf, hr]
    rfl

/-- Settles O31: no access is performed, so the next state is the one the exception leaves: the error flag
set, or an entry. -/
theorem trapsArePrecise : Obligations.TrapsArePrecise := by
  intro i s s' h hlisted
  have hundef := verdict_undefined_iff i s
  have hno := verdict_ne_access_of_listed hlisted
  obtain ⟨hx, hmpam, hmem, hlog⟩ := movesNothing_exec_of_no_access hno s' h
  obtain ⟨hgiven, -⟩ := exec_next_keeps_given_and_ticks h
  refine ⟨hx, hmpam, hmem, hlog, hgiven, ?_⟩
  obtain ⟨hv, -, rfl⟩ | ⟨k, hv, -, hs⟩ | ⟨r, hv, -⟩ := exec_next h
  · have hl := hundef.mp hv
    obtain ⟨hhalt, hu⟩ | ⟨hhalt, hu⟩ := takeUndefined_cases s
    · exact ⟨fun _ _ => by rw [hu]; rfl, fun hnot => absurd ⟨hhalt, hl⟩ hnot⟩
    · exact ⟨fun hh => by simp [hhalt] at hh, fun _ => ⟨_, entered_saves (by rw [hu])⟩⟩
  · exact ⟨fun _ hl => by simp [hundef.mpr hl] at hv, fun _ => ⟨k, entered_saves hs⟩⟩
  · exact absurd hv (hno r)

/-- Settles O18: absence is on R144's list at every level. -/
theorem absentRegistersAreUndefined : Obligations.AbsentRegistersAreUndefined := by
  intro i s habsent
  apply exec_of_undefined
  rw [verdict_undefined_iff, listedUndefined_iff]
  obtain hf | ⟨hi, h3⟩ := habsent
  · exact .inl hf
  · exact .inr (.inr (.inr (.inr ⟨hi, .inr h3⟩)))

end Sys2Proof.Machine
end

section
/-! The complete list of Undefined (60_exceptions.md R144), the accessors of MPAM2_EL2 on every path
(40_mpam2_el2_access.md R111, R112), and what EL3 reaches (60_exceptions.md R160). -/

namespace Sys2Proof.Machine

/-! ### Undefined where exceptions stop the run (R144) -/

/-- Where exceptions stop the run, the Undefined fault is the Undefined verdict. -/
theorem exec_eq_undefined_fault_iff {i : Instr} {s : State} (hs : s.cfg.onException = .stop) :
    exec i s = .fault (.undefined i) ↔ verdict i s = .undefined := by
  cases hv : verdict i s with
  | undefined => simp [exec_of_undefined hv, raise, hs]
  | trap k => simp [exec_of_trap hv, raise, hs]
  | access r => simp [exec_of_access hv, performed_ne_fault]

/-! ### The paths of the accessors of MPAM2_EL2 (R111, R112) -/

section
variable {i : Instr} {s : State} (hi : i.sysReg = .mpam2El2) (hf : s.cfg.featMPAM = true)
include hi hf

theorem verdict_mpam2_reaches_mpam2
    (h : s.pstate.el = .el3 ∨ (s.pstate.el = .el2 ∧ t3 s = false)) :
    verdict i s = .access .mpam2 := by
  rw [verdict_mpam2 hi hf]
  obtain hel | ⟨hel, h3⟩ := h
  · rw [hel]; rfl
  · rw [hel, h3]; rfl

theorem verdict_mpam2_undefined_iff :
    verdict i s = .undefined ↔
      s.pstate.el = .el0 ∨ (s.pstate.el = .el1 ∧ nvt s = false) ∨
        ((s.pstate.el = .el1 ∧ nvt s = true ∨ s.pstate.el = .el2) ∧ t3 s = true ∧ sd s = true) := by
  rw [verdict_mpam2 hi hf, tableMpam2_undefined_iff]

theorem verdict_mpam2_trap_iff (k : HandlerEL) :
    verdict i s = .trap k ↔
      (k = .el3 ∧ (s.pstate.el = .el1 ∧ nvt s = true ∨ s.pstate.el = .el2) ∧ t3 s = true ∧
          sd s = false) ∨
        (k = .el2 ∧ s.pstate.el = .el1 ∧ nvt s = true ∧ t3 s = false) := by
  rw [verdict_mpam2 hi hf, tableMpam2_trap_iff]

/-- What R111 and R112 say alike: the paths on which the register is not reached. -/
theorem exec_mpam2_not_performed :
    (s.pstate.el = .el0 → exec i s = raise i .undefined s) ∧
    (s.pstate.el = .el1 → nvt s = false → exec i s = raise i .undefined s) ∧
    (s.pstate.el = .el1 → nvt s = true → t3 s = false →
      exec i s = raise i (.systemAccessTrap .el2) s) ∧
    ((s.pstate.el = .el1 ∧ nvt s = true ∨ s.pstate.el = .el2) → t3 s = true → sd s = true →
      exec i s = raise i .undefined s) ∧
    ((s.pstate.el = .el1 ∧ nvt s = true ∨ s.pstate.el = .el2) → t3 s = true → sd s = false →
      exec i s = raise i (.systemAccessTrap .el3) s) ∧
    ((∀ r, verdict i s ≠ .access r) → movesNothing s (exec i s)) := by
  have hundef := verdict_mpam2_undefined_iff hi hf
  have htrap := verdict_mpam2_trap_iff hi hf
  exact ⟨fun hel => exec_of_undefined (hundef.mpr (.inl hel)),
    fun hel hnv => exec_of_undefined (hundef.mpr (.inr (.inl ⟨hel, hnv⟩))),
    fun hel hnv h3 => exec_of_trap ((htrap .el2).mpr (.inr ⟨rfl, hel, hnv, h3⟩)),
    fun hlow h3 hsd => exec_of_undefined (hundef.mpr (.inr (.inr ⟨hlow, h3, hsd⟩))),
    fun hlow h3 hsd => exec_of_trap ((htrap .el3).mpr (.inl ⟨rfl, hlow, h3, hsd⟩)),
    movesNothing_exec_of_no_access⟩

end

/-! ### What EL3 reaches (R160) -/

/-- At EL3 each accessor reaches a register, never memory. -/
theorem verdict_at_el3 (i : Instr) {s : State} (hf : s.cfg.featMPAM = true)
    (h3 : s.cfg.haveEL3 = true) (hel : s.pstate.el = .el3) :
    ∃ r, verdict i s = .access r ∧ r ≠ .nvMem := by
  cases hi : i.sysReg with
  | mpam1El1 => exact ⟨.mpam1, verdict_mpam1_reaches_mpam1 hi hf (.inl hel), by simp⟩
  | mpam2El2 => exact ⟨.mpam2, verdict_mpam2_reaches_mpam2 hi hf (.inl hel), by simp⟩
  | mpam3El3 => exact ⟨.mpam3, by simp [verdict_mpam3 hi hf, h3, hel], by simp⟩

/-! ### The obligations -/

/-- Settles O22: the verdict is Undefined on R144's list alone, and the outcome is the verdict's. -/
theorem undefinedAccessesAreTheListed : Obligations.UndefinedAccessesAreTheListed := by
  intro i s
  have hlist := verdict_undefined_iff i s
  exact ⟨fun h => exec_of_undefined (hlist.mpr h),
    fun hs => (exec_eq_undefined_fault_iff hs).trans hlist⟩

/-- Settles O12: where the register is reached, its value is moved to X[t]. -/
theorem mrsMpam2El2Meaning : Obligations.MrsMpam2El2Meaning := by
  intro t s hf
  refine ⟨fun h hroom => ?_, exec_mpam2_not_performed rfl hf⟩
  have hu : performed (.mrsMpam2El2 t) .mpam2 s = complete (writeX s t (readMPAM2 .mpam2 s)) := rfl
  exact exec_eq_next_of_performed (verdict_mpam2_reaches_mpam2 rfl hf h) hu (writeX_pc _ _ _)
    (writeX_draws _ _ _) hroom

/-- Settles O13: where the register is reached, X[t] is written to it. -/
theorem msrMpam2El2Meaning : Obligations.MsrMpam2El2Meaning := by
  intro t s hf
  refine ⟨fun h hroom => ?_, exec_mpam2_not_performed rfl hf⟩
  have hu : performed (.msrMpam2El2 t) .mpam2 s = complete (writeMPAM2 .mpam2 (readX s t) s) := rfl
  exact exec_eq_next_of_performed (verdict_mpam2_reaches_mpam2 rfl hf h) hu (writeMPAM2_pc _ _ _)
    (writeMPAM2_draws _ _ _) hroom

/-- Settles O26: every verdict at EL3 is an access, and none is to NVMem, the one that stores bytes. -/
theorem el3ReachesEveryRegister : Obligations.EL3ReachesEveryRegister := by
  intro i s hf h3 hel hroom
  obtain ⟨r, hv, hr⟩ := verdict_at_el3 i hf h3 hel
  obtain ⟨s', h, hpc, hexc⟩ := exec_of_access_with_room hv hroom
  refine ⟨s', h, hpc, hexc, fun a => ?_⟩
  obtain hmem | ⟨hnv, -⟩ := exec_next_mem h
  · rw [hmem]
  · exact absurd (Verdict.access.inj (hv.symm.trans hnv)) hr

end Sys2Proof.Machine
end

section
/-! Debug state's exception to TRAPLOWER (60_exceptions.md R145), the entry of a trap and of an Undefined
exception (R150, R152), and the return that undoes an entry (R153). -/

namespace Sys2Proof.Machine

/-! ### Debug state and the lists (R142 to R145) -/

theorem sd_iff (s : State) : sd s = true ↔ s.inp.halted = true ∧ s.inp.edscrSDD = true := by
  simp [sd]

/-- R143's list reads neither Halted() nor EDSCR.SDD. -/
theorem listedTrapEL2_of_debug_inputs (i : Instr) (s : State) (halted sdd : Bool) :
    listedTrapEL2 i { s with inp := { s.inp with halted := halted, edscrSDD := sdd } } =
      listedTrapEL2 i s := rfl

/-! ### What an entry saves and where it goes (R150, R152) -/

theorem bank_tick (s : State) (h : HandlerEL) : bank (tick s) h = bank s h := by cases h <;> rfl

theorem bank_enterException (h : HandlerEL) (esr : BitVec 32) (s : State) :
    bank (enterException h esr s) h = ⟨esr, s.pc, s.pstate⟩ := by cases h <;> rfl

theorem bank_enterException_of_ne {h k : HandlerEL} (esr : BitVec 32) (s : State) (hk : k ≠ h) :
    bank (enterException h esr s) k = bank s k := by
  cases k <;> simp [bank, hk.symm]

/-- The frame of an entry: beside the exception registers, PSTATE, the pc and the lists of unsynchronised
writes, only the draw counter moves. -/
theorem tick_enterException_frame (h : HandlerEL) (esr : BitVec 32) (s : State) :
    (tick (enterException h esr s)).x = s.x ∧ sameMpam s (tick (enterException h esr s)) ∧
      sameGiven s (tick (enterException h esr s)) ∧ (tick (enterException h esr s)).mem = s.mem ∧
      (tick (enterException h esr s)).debugError = s.debugError ∧
      (tick (enterException h esr s)).nvLog = s.nvLog ∧
      (tick (enterException h esr s)).draws = s.draws + 1 := by
  simp [sameMpam, sameGiven]

theorem vectorOffset_of_lower {s : State} {h : HandlerEL} (hlow : s.pstate.el.toNat < h.toEL.toNat) :
    vectorOffset s h = 0x400#64 := if_pos hlow

/-- An Undefined exception comes from a lower level only at EL0. -/
theorem vectorOffset_undefinedTarget (s : State) :
    vectorOffset s (undefinedTarget s) =
      if s.pstate.el = .el0 then 0x400#64 else if s.pstate.sp then 0x200#64 else 0x000#64 := by
  by_cases hel : s.pstate.el = .el0
  · rw [if_pos hel]
    obtain hk | ⟨hk, -⟩ := undefinedTarget_of_el0 hel <;>
      exact vectorOffset_of_lower (by rw [hel, hk]; decide)
  · rw [if_neg hel, vectorOffset, undefinedTarget_of_ne_el0 hel, if_neg (Nat.lt_irrefl _)]

theorem undefinedTarget_at_el0 {s : State} (hel : s.pstate.el = .el0) :
    undefinedTarget s = if s.inp.el2Enabled && s.inp.hcrTGE then .el2 else .el1 := by
  simp only [undefinedTarget, hel]

/-- The class of an Undefined exception is 0x00, whatever value IL and ISS take. -/
theorem undefinedEsr_class (s : State) : (undefinedEsr s).extractLsb' 26 6 = 0x00#6 := by
  unfold undefinedEsr
  generalize (drawAt s .undefinedSyndrome).extractLsb' 0 26 = syndrome
  apply BitVec.eq_of_toNat_eq
  have hlt := syndrome.isLt
  simp only [BitVec.extractLsb'_toNat, BitVec.toNat_setWidth, Nat.shiftRight_eq_div_pow,
    BitVec.toNat_ofNat]
  omega

/-! ### A raised exception where exceptions are entered (R140) -/

theorem raise_undefined_of_enter (i : Instr) {s : State} (he : s.cfg.onException = .enter) :
    raise i .undefined s = .next (tick (takeUndefined s)) := by simp only [raise, he]

theorem raise_trap_of_enter (i : Instr) (h : HandlerEL) {s : State}
    (he : s.cfg.onException = .enter) :
    raise i (.systemAccessTrap h) s = .next (tick (enterException h (trapEsr i) s)) := by
  simp only [raise, he]

/-! ### Returning (R153) -/

theorem exceptionReturn_at {h : HandlerEL} (advance : Bool) {s : State} (hel : s.pstate.el = h.toEL) :
    exceptionReturn advance s = returnThrough h advance s := by
  cases h <;> simp only [exceptionReturn, hel, HandlerEL.toEL]

/-- When a return is answered: the converse of `returnThrough_next`. -/
theorem returnThrough_eq_next {h : HandlerEL} {advance : Bool} {s : State}
    (hroom : advance = true → (bank s h).elr.toNat + 4 < 2 ^ 64)
    (hlevel : (bank s h).spsr.el.toNat ≤ s.pstate.el.toNat)
    (haligned : (returnAddress (bank s h) advance).toNat % 4 = 0)
    (hadm : (returned h (returnAddress (bank s h) advance) s).admitted = true)
    (htext : textOverlapsNVMem s = false) :
    returnThrough h advance s =
      .next (tick (returned h (returnAddress (bank s h) advance) s)) := by
  have hnowrap : ¬(advance && decide (2 ^ 64 ≤ (bank s h).elr.toNat + 4)) = true := by
    simpa only [Bool.and_eq_true, decide_eq_true_eq, not_and, Nat.not_le] using hroom
  have htext' : textOverlapsNVMem (returned h (returnAddress (bank s h) advance) s) = false :=
    (textOverlapsNVMem_congr (returned_text _ _ _) (returned_inp _ _ _)).trans htext
  rw [returnThrough, if_neg hnowrap, if_neg (Nat.not_lt.mpr hlevel), if_neg (not_not.mpr haligned)]
  exact unlessRefused_of _ hadm htext'

/-- What a handler's return finds in ELR, advanced or not, after an entry. -/
theorem returnAddress_enterException (h : HandlerEL) (esr : BitVec 32) (advance : Bool) (s : State) :
    returnAddress (bank (enterException h esr s) h) advance =
      if advance then s.pc + 4#64 else s.pc := by
  rw [bank_enterException, returnAddress]

/-- The state a return leads to after an entry, admitted because its level is the one entered from. -/
theorem returned_enterException_admitted (h : HandlerEL) (esr : BitVec 32) (target : Word) {s : State}
    (ha : s.admitted = true) : (returned h target (enterException h esr s)).admitted = true := by
  have hps : (returned h target (enterException h esr s)).pstate = s.pstate := by
    rw [returned_pstate, bank_enterException]
  refine admitted_of_level ha (by simp) (by simp) ?_ ?_
  · rw [hps]; exact haveEL3_of_admitted ha
  · rw [hps]; exact el2Enabled_of_admitted ha

/-! ### The obligations -/

/-- Settles O24: with TRAPLOWER set, a case of R142 is on R144's list or R142's by Debug state and SDD; R143's
list reads neither. -/
theorem debugExceptionToTraplower : Obligations.DebugExceptionToTraplower := by
  intro i s hf
  refine ⟨fun h3 htl hcase => ?_, fun hl halted sdd => ?_⟩
  · have ht3 : t3 s = true := by simp [t3, h3, htl]
    rw [← sd_iff]
    refine ⟨fun hsd => (undefinedAccessesAreTheListed i s).1 ?_,
      fun hsd => (trapsToEL3AreTheListed i s).1 ?_⟩
    · exact (listedUndefined_iff i s).mpr (.inr (.inr (.inr (.inl ⟨hcase, ht3, hsd⟩))))
    · exact (listedTrapEL3_iff i s).mpr ⟨hf, ht3, Bool.eq_false_iff.mpr hsd, hcase⟩
  · exact (trapsToEL2AreTheListed i _).1 ((listedTrapEL2_of_debug_inputs i s halted sdd).trans hl)

/-- Settles O32: the entry has saved the pc and PSTATE at the handler's level, and none of the return's
refusals applies to them. -/
theorem returnUndoesEntry : Obligations.ReturnUndoesEntry := by
  intro h esr advance s ha hpc hlevel htext hroom
  have hbank := bank_enterException h esr s
  have haddr := returnAddress_enterException h esr advance s
  have haligned : (if advance then s.pc + 4#64 else s.pc).toNat % 4 = 0 := by
    split
    · exact aligned_add hpc rfl
    · exact hpc
  have htext' := (textOverlapsNVMem_congr (enterException_text h esr s)
    (enterException_inp h esr s)).trans htext
  have hreturn : exceptionReturn advance (enterException h esr s) =
      .next (tick (returned h (if advance then s.pc + 4#64 else s.pc) (enterException h esr s))) := by
    have hel : (enterException h esr s).pstate.el = h.toEL := rfl
    rw [exceptionReturn_at advance hel, returnThrough_eq_next, haddr]
    · simpa [hbank, roomForNext] using hroom
    · simpa [hbank] using hlevel
    · rw [haddr]; exact haligned
    · exact returned_enterException_admitted h esr _ ha
    · exact htext'
  exact ⟨_, hreturn, by simp [hbank], by simp, by simp, by simp [sameMpam], by simp [sameGiven],
    by simp⟩

/-- Settles O28: the trap is an entry from a lower level. -/
theorem trapEntrySavesAndVectors : Obligations.TrapEntrySavesAndVectors := by
  intro i h s he hlow
  obtain ⟨hx, hmpam, hgiven, hmem, herr, hlog, hdraws⟩ := tick_enterException_frame h (trapEsr i) s
  refine ⟨_, raise_trap_of_enter i h he, ?_, fun k hk => ?_, rfl, ?_, rfl, rfl, hx, hmpam, hgiven,
    hmem, herr, hlog, hdraws⟩
  · rw [bank_tick, bank_enterException]
  · rw [bank_tick, bank_enterException_of_ne _ _ hk]
  · rw [tick_pc, enterException_pc, vectorOffset_of_lower hlow]

/-- Settles O30: in Debug state the error flag, otherwise an entry at the Undefined exception's target. -/
theorem undefinedEntrySavesAndVectors : Obligations.UndefinedEntrySavesAndVectors := by
  intro i s he
  rw [raise_undefined_of_enter i he]
  obtain ⟨hhalt, hu⟩ | ⟨hhalt, hu⟩ := takeUndefined_cases s <;> rw [hu]
  · exact ⟨fun _ => rfl, fun hrun => by simp [hhalt] at hrun⟩
  · refine ⟨fun hh => by simp [hhalt] at hh, fun _ => ?_⟩
    obtain ⟨hx, hmpam, hgiven, hmem, herr, hlog, -⟩ :=
      tick_enterException_frame (undefinedTarget s) (undefinedEsr s) s
    have hsaved := bank_enterException (undefinedTarget s) (undefinedEsr s) s
    refine ⟨_, undefinedTarget s, rfl, undefinedTarget_at_el0, undefinedTarget_of_ne_el0, ?_, ?_, ?_,
      fun k hk => ?_, rfl, ?_, rfl, rfl, hx, hmpam, hgiven, hmem, herr, hlog⟩
    · rw [bank_tick, hsaved]
      exact undefinedEsr_class s
    · rw [bank_tick, hsaved]
    · rw [bank_tick, hsaved]
    · rw [bank_tick, bank_enterException_of_ne _ _ hk]
    · rw [tick_pc, enterException_pc, vectorOffset_undefinedTarget]

end Sys2Proof.Machine
end

section
/-! What an unsynchronised read shows (70_reset_and_hazards.md R176): the values it may still show are those
before pending writes through other paths. -/

namespace Sys2Proof.Machine

/-! ### The older values and the pending writes they come from -/

theorem exists_pending_of_mem_olderValues {α : Type} {v : View} {ps : List (Pending α)} {a : α}
    (h : a ∈ olderValues v ps) : ∃ p ∈ ps, p.view ≠ v ∧ a = p.old := by
  induction ps with
  | nil => simp [olderValues] at h
  | cons p ps ih =>
    by_cases hown : p.view = v
    · simp [olderValues, hown] at h
    · simp only [olderValues, hown, if_false, List.mem_cons] at h
      obtain rfl | hlater := h
      · exact ⟨p, List.mem_cons_self, hown, rfl⟩
      · obtain ⟨q, hq, hother, hold⟩ := ih hlater
        exact ⟨q, List.mem_cons_of_mem p hq, hother, hold⟩

/-- `oldOrNew_mem` for a field of what was pending: the draw picks the current value of the field or the one
before a pending write through another path. -/
theorem oldOrNew_olderValues {α β : Type} {k : Word} {v : View} {get : α → β} {new seen : β}
    {ps : List (Pending α)} (h : oldOrNew k new ((olderValues v ps).map get) = seen) :
    seen = new ∨ ∃ p ∈ ps, p.view ≠ v ∧ seen = get p.old := by
  subst h
  obtain hnew | hold := List.mem_cons.mp (oldOrNew_mem k new ((olderValues v ps).map get))
  · exact .inl hnew
  · obtain ⟨a, ha, hseen⟩ := List.mem_map.mp hold
    obtain ⟨p, hp, hother, rfl⟩ := exists_pending_of_mem_olderValues ha
    exact .inr ⟨p, hp, hother, hseen.symm⟩

/-! ### A read through any path -/

theorem mpamenSeen_old_or_new (s : State) (v : View) :
    mpamenSeen s v = s.mpamen ∨ ∃ p ∈ s.enPending, p.view ≠ v ∧ mpamenSeen s v = p.old := by
  cases hm : s.cfg.syncModel with
  | immediate => exact .inl (by simp [mpamenSeen, hm])
  | untilSync =>
    exact oldOrNew_olderValues (k := drawAt s (.mpamenSeen v)) (get := id) (by simp [mpamenSeen, hm])

theorem m2Seen_old_or_new {α : Type} (s : State) (v : View) (f : M2Field) (get : M2 → α) :
    m2Seen s v f get = get s.m2 ∨
      ∃ p ∈ s.m2Pending, p.view ≠ v ∧ m2Seen s v f get = get p.old := by
  cases hm : s.cfg.syncModel with
  | immediate => exact .inl (by simp [m2Seen, hm])
  | untilSync => exact oldOrNew_olderValues (k := drawAt s (.m2Seen v f)) (by simp only [m2Seen, hm])

theorem contextSync_synced (s : State) : (contextSync s).synced = true := by simp [State.synced]

/-- Settles O41: a draw picks among the current value and the older ones, which a context synchronisation
event empties and a write through the read's own path hides. -/
theorem unsynchronisedReadsAreOldOrNew : Obligations.UnsynchronisedReadsAreOldOrNew := by
  intro v s
  have hsync := contextSync_synced s
  exact ⟨mpamenSeen_old_or_new s v, mpamenSeen_of_synced _ v hsync,
    fun b => mpamenSeen_of_newest (writeMpamen_enPending v b s),
    fun _ f get => ⟨m2Seen_old_or_new s v f get, m2Seen_of_synced _ v f get hsync,
      fun w => m2Seen_of_newest (writeMPAM2_m2Pending v w s) f get⟩⟩

end Sys2Proof.Machine
end
